-- ==== Sys2Proof/Word.lean ====
section
/-! DEFINITION. The words of the NF2400 and how a slot is numbered (00_scope.md, Conventions). -/

namespace Sys2Proof

/-- One byte of a message, a frame or the image store. -/
abbrev Byte := BitVec 8

/-- A 16-bit field, such as a fault detail or an image generation. -/
abbrev Half := BitVec 16

/-- A 32-bit field, such as a CRC-32. -/
abbrev Word := BitVec 32

/-- A value of the time base: a 32-bit count of milliseconds (R100). -/
abbrev Count := BitVec 32

/-- The 16-bit number the test host gives each request (00_scope.md, Terms). -/
abbrev Tag := BitVec 16

/-- A slot number, 0 to 23. -/
abbrev SlotId := Fin 24

/-- A slot set: the 24-bit membership field, slot 0 in the lowest bit. -/
abbrev SlotSet := BitVec 24

/-- An image record's number, 0 to 7 (R119). -/
abbrev ImageId := Fin 8

end Sys2Proof
end

