-- ==== Sys2Proof/Config.lean ====
section
/-! DEFINITION. What one NF2400 fixes: capacities, code numbers of the part, lengths of fixed timers, rates, and the
values the spec leaves open (log 14, log 20). -/

namespace Sys2Proof.Config

/-- Gather memory, in bytes (R73, R192). -/
def gatherBytes : Nat := 65536
/-- Image store, in bytes (R117, R192). -/
def storeBytes : Nat := 8388608
/-- One unit of the image store, 256 KiB (R120). -/
def unitBytes : Nat := 262144
/-- Units of the image store (R117). -/
def storeUnits : Nat := 32
/-- One block of the image store (R117), which is also one chunk of a stream (R139). -/
def blockBytes : Nat := 512
/-- The 64-bit words of one block (R117). -/
def blockWords : Nat := 64
/-- The 64-bit words of the image store (R117). -/
def storeWords : Nat := 1048576
/-- Entries of the Operation Table (R68, R192). -/
def operationEntries : Nat := 16
/-- Depth of a directive queue (R76, R192). -/
def queueDepth : Nat := 4
/-- Bytes of a console ring (R159) and of a bridge's output buffer (R163). -/
def ringBytes : Nat := 2048
/-- The most bytes a BRIDGE_OUT carries (R168). -/
def bridgeOutBytes : Nat := 256
/-- The most receipts that wait in the uplink (R186). -/
def receiptLimit : Nat := 8
/-- The longest message of the control port (10.1.1, R192). -/
def messageLimit : Nat := 8192
/-- The largest credit of a stream (R138). -/
def creditLimit : Nat := 8
/-- Samples kept of a powered period (R147). -/
def historyLimit : Nat := 1000
/-- The full-scale current sample, in mA (R147, R148). -/
def fullScale : Nat := 4000
/-- The longest window of a member, in ms (R105, R113). -/
def windowLimit : Nat := 1800000
/-- The most further faults counted (R19). -/
def furtherLimit : Nat := 255
/-- The quality score at rest and after a HELLO (R30, R39). -/
def scoreStart : Nat := 48
/-- The largest quality score (R45). -/
def scoreMax : Nat := 64
/-- The score after a successful step-down (R44). -/
def scoreStepDown : Nat := 40
/-- The score at or below which a step-down is due (R47). -/
def scoreLow : Nat := 16

/-- Lengths of the fixed timers, in ms (R101). -/
def debounceMs : Nat := 50
def interlockMs : Nat := 10
def settleMinMs : Nat := 20
def resyncMs : Nat := 1000
def exchangeWaitMs : Nat := 50
def stallMs : Nat := 2
def abortWaitMs : Nat := 200
def gatheringMs : Nat := 2
/-- The break of an orderly bridge exit (R171; log 19). -/
def breakMs : Nat := 2

/-- Group 0's default timeout, and the timeout of an explicit set (R56, R71). -/
def defaultTimeoutMs : Nat := 10000
/-- Group 0's default reply_max, and the reply limit of an explicit set (R56, R71). -/
def defaultReply : Nat := 64

/-- IDENTIFY's codes (R192). -/
def vendorCode : BitVec 16 := 0x1A7E
def partCode : BitVec 16 := 0x2400
def siliconRevision : BitVec 8 := 3

/-- The rate in bit/s of a rate index (00_scope.md, Rates). An index above 4 does not occur; it reads as index 4. -/
def rate : Nat → Nat
  | 0 => 500000
  | 1 => 1000000
  | 2 => 3000000
  | 3 => 6000000
  | _ => 12000000

/-- FREE VALUE (log 14). R18 makes the detail of a NO_AGENT fault the length of the allowance that ran out, in a 16-bit
field; a boot_allow_ms may be up to 120,000. The spec states no detail for a length that 16 bits cannot hold. -/
opaque longAllowanceDetail : Nat → BitVec 16

/-- FREE VALUE (log 20). The high mark of a FREE image is absent (R119); 10.6 gives the bytes of an absent field of one or
two bytes only. -/
opaque absentHighMark : BitVec 32

end Sys2Proof.Config
end

