-- ==== Sys2Proof/Syntax.lean ====
section
/-! DEFINITION. The commands of the NF2400: one constructor of `Instr` per row of opcode_table.json, with the operands
the spec gives each: a request's tag and body fields (10.6.1), a frame's fields (R31), the slot or bank of an expiry, the
level of a pin, bits the store has lost. -/

namespace Sys2Proof

/-- The body of a request: its fields where the body has the shape of 10.6.1, else the bytes of a body that R196 refuses
for its length or for the code or flag byte that selects the command (log 23). Code bytes inside `shaped` fields are
checked by the command's own meaning. -/
inductive Body (α : Type) where
  | shaped (fields : α)
  | misshapen (bytes : List Byte)
  deriving DecidableEq, Repr

/-- SET_PROFILE's fields (10.6.1). -/
structure ProfileFields where
  set : SlotSet
  mask : Half
  rateCeiling : Byte
  bootAllow : Word
  keyPress : Half
  autostart : Byte
  autoRecover : Byte
  recoverOff : Half
  currentLimit : Half
  tripBudget : Word
  inrushBlank : Byte
  deriving DecidableEq, Repr

/-- DEFINE_GROUP's fields but for the undefine flag, which the command names (R57). -/
structure GroupFields where
  group : Byte
  members : SlotSet
  policy : Byte
  k : Byte
  timeout : Word
  replyMax : Half
  deriving DecidableEq, Repr

/-- SET_TRANSLATION's fields (R66). -/
structure TranslationFields where
  set : SlotSet
  pairs : List (Byte × Byte)
  deriving DecidableEq, Repr

/-- The first ten fields of DIRECT and of PUSH (10.6.1). -/
structure OperationFields where
  selector : Byte
  group : Byte
  set : SlotSet
  policyPresent : Byte
  policy : Byte
  k : Byte
  service : Byte
  timeout : Word
  replyPresent : Byte
  replyMax : Half
  deriving DecidableEq, Repr

structure DirectFields where
  op : OperationFields
  payload : List Byte
  deriving DecidableEq, Repr

structure PushFields where
  op : OperationFields
  image : Byte
  deriving DecidableEq, Repr

structure ImageDefineFields where
  image : Byte
  base : Byte
  sizeClass : Byte
  deriving DecidableEq, Repr

structure ImageWriteFields where
  image : Byte
  offset : Word
  data : List Byte
  deriving DecidableEq, Repr

structure ImageCommitFields where
  image : Byte
  crc : Word
  deriving DecidableEq, Repr

structure PressKeyFields where
  set : SlotSet
  duration : Half
  deriving DecidableEq, Repr

structure OpenBridgeFields where
  slot : Byte
  idleClass : Byte
  deriving DecidableEq, Repr

structure BridgeDataFields where
  slot : Byte
  data : List Byte
  deriving DecidableEq, Repr

/-- A frame of the slot link without its start byte, length and CRC-16 (R31). -/
structure Frame where
  kind : Byte
  seq : Byte
  service : Byte
  payload : List Byte
  deriving DecidableEq, Repr

/-- A drawer: bank A is slots 0 to 11, bank B slots 12 to 23. -/
inductive Bank where
  | a
  | b
  deriving DecidableEq, Repr

/-- The commands. Requests carry the message's tag and body. The operands `lostOne` and `lostTwo` of a store access name the
words of the store accessed that have lost one bit, and two, since the access before, each by its number from the first word
the access covers (R117; log 8). -/
inductive Instr where
  -- the port and the resets
  | powerOnReset (banksHigh ceilingHigh : Bool)
  | hostPortConfigured
  | hostPortDetach
  | malformedTransfer (transfer : List Byte)
  | identify (tag : Tag) (body : Body Unit)
  | restart (tag : Tag) (body : Body Unit)
  -- slot control, profile and queries
  | setProfile (tag : Tag) (body : Body ProfileFields)
  | powerOn (tag : Tag) (body : Body SlotSet)
  | powerOff (tag : Tag) (body : Body SlotSet)
  | cycle (tag : Tag) (body : Body SlotSet)
  | resetSlot (tag : Tag) (body : Body SlotSet)
  | clearFault (tag : Tag) (body : Body SlotSet)
  | disable (tag : Tag) (body : Body SlotSet)
  | enable (tag : Tag) (body : Body SlotSet)
  | querySlots (tag : Tag) (body : Body SlotSet)
  -- tables
  | defineGroup (tag : Tag) (body : Body GroupFields)
  | undefineGroup (tag : Tag) (body : Body GroupFields)
  | setFixtureLoad (tag : Tag) (body : Body (Vector Byte 24))
  | setFixtureClear (tag : Tag) (body : Body (Vector Byte 24))
  | setTranslation (tag : Tag) (body : Body TranslationFields)
  -- operations
  | direct (tag : Tag) (body : Body DirectFields)
  | push (tag : Tag) (body : Body PushFields)
  | cancel (tag : Tag) (body : Body Tag)
  | queryOperations (tag : Tag) (body : Body Unit)
  -- images
  | imageDefine (tag : Tag) (body : Body ImageDefineFields)
  | imageWrite (tag : Tag) (body : Body ImageWriteFields)
  | imageWriteAccessDone (lostOne lostTwo : List Nat)
  | imageCommit (tag : Tag) (body : Body ImageCommitFields)
  | imageRelease (tag : Tag) (body : Body Byte)
  | imageQuery (tag : Tag) (body : Body Unit)
  -- measurement, key, console, bridge, events
  | measure (tag : Tag) (body : Body SlotSet)
  | pressKey (tag : Tag) (body : Body PressKeyFields)
  | readConsole (tag : Tag) (body : Body Byte)
  | openBridge (tag : Tag) (body : Body OpenBridgeFields)
  | bridgeData (tag : Tag) (body : Body BridgeDataFields)
  | closeBridge (tag : Tag) (body : Body Byte)
  | readEvents (tag : Tag) (body : Body SlotSet)
  | setNoticeMask (tag : Tag) (body : Body Half)
  -- the uplink
  | receiptSent
  | gatherReportSent
  | bridgeOutSent
  | noticeBegun
  -- presence and interlock inputs
  | presenceContactChange (slot : SlotId) (seated : Bool) (nestLines : Byte)
  | presenceDebounceExpiry (slot : SlotId)
  | interlockInputChange (bank : Bank) (isOpen : Bool)
  | interlockSettleExpiry (bank : Bank)
  -- life cycle timers
  | settleTimerExpiry (slot : SlotId)
  | bootAllowanceExpiry (slot : SlotId)
  | resyncAllowanceExpiry (slot : SlotId)
  | recoveryOffTimerExpiry (slot : SlotId)
  -- the slot link
  | hello (slot : SlotId) (detector : Bool) (seq service : Byte) (payload : List Byte)
  | linkAck (slot : SlotId) (seq service : Byte) (payload : List Byte)
  | rateExchangeWaitExpiry (slot : SlotId)
  | result (slot : SlotId) (seq service : Byte) (payload : List Byte)
  | text (slot : SlotId) (seq service : Byte) (payload : List Byte)
  | streamCredit (slot : SlotId) (seq service : Byte) (payload : List Byte)
  | formatError (slot : SlotId) (frame : Frame)
  | crcError (slot : SlotId)
  | receiverStallExpiry (slot : SlotId)
  | linkFrameSent (slot : SlotId)
  | abortFrameSent (slot : SlotId)
  | streamOpenSent (slot : SlotId)
  | streamDataSent (slot : SlotId)
  | streamChunkRead (slot : SlotId) (lostOne lostTwo : List Nat)
  | damageStop (slot : SlotId)
  -- deadlines
  | memberWindowExpiry (slot : SlotId)
  | queueLimitExpiry (slot : SlotId)
  | abortWaitExpiry (slot : SlotId)
  | keyPressExpiry (slot : SlotId)
  | blankingWindowExpiry (slot : SlotId)
  -- current supervision
  | currentSample (slot : SlotId) (milliamps : Nat)
  | faultRequest (slot : SlotId)
  -- the bridge
  | bridgeIdleTimerExpiry (slot : SlotId)
  | breakEnd (slot : SlotId)
  | rawByteReceived (slot : SlotId) (byte : Byte)
  | bridgeOutGatheringExpiry (slot : SlotId)
  | bridgeByteSent (slot : SlotId)
  -- the clear/verify engine
  | clearingJobEnd
  | verificationJobEnd (lostOne lostTwo : List Nat)
  -- the exchange between the fan-out engine and the slot engines
  | append (slot : SlotId)
  | withdraw (slot : SlotId)
  | startReport (slot : SlotId)
  | resultReport (slot : SlotId)
  | windowExpiryReport (slot : SlotId)
  | queueLimitReport (slot : SlotId)
  | dropReport (slot : SlotId)
  | streamDamageReport (slot : SlotId)
  | sequenceErrorFrame (slot : SlotId) (seq : Byte)
  deriving DecidableEq, Repr

end Sys2Proof
end

