-- ==== Sys2Proof/Decode.lean ====
section
/-! DEFINITION. How bytes become commands. opcode_table.json gives no row any bits, so `decodeTableWord` answers none. The
requests do have a layout: `decodeTransfer` reads a transfer of the bulk OUT pipe by 10.1.1, R185, R196 and 10.6.1. -/

namespace Sys2Proof

/-- The value of a little-endian field (00_scope.md, Byte order). -/
def fromLittleEndian : List Byte → Nat
  | [] => 0
  | x :: xs => x.toNat + 256 * fromLittleEndian xs

/-- The `n` bytes of a little-endian field. -/
def toLittleEndian : Nat → Nat → List Byte
  | 0, _ => []
  | n + 1, v => BitVec.ofNat 8 v :: toLittleEndian n (v / 256)

/-- A yes/no, flag or present byte: 0 or 1 (10.6.2). -/
def isFlagByte (x : Byte) : Bool := x == 0 || x == 1

/-- The byte at an offset of a body. -/
def byteAt (body : List Byte) (offset : Nat) : Byte := body.getD offset 0

/-- The value of the `n`-byte field at an offset of a body. -/
def fieldAt (body : List Byte) (offset n : Nat) : Nat := fromLittleEndian ((body.drop offset).take n)

def halfAt (body : List Byte) (offset : Nat) : Half := BitVec.ofNat 16 (fieldAt body offset 2)

def wordAt (body : List Byte) (offset : Nat) : Word := BitVec.ofNat 32 (fieldAt body offset 4)

/-- The slot set at an offset of a body: three bytes, slot 0 in the lowest bit (10.6). -/
def setAt (body : List Byte) (offset : Nat) : SlotSet := BitVec.ofNat 24 (fieldAt body offset 3)

/-- A body that passes a shape check, read by `read`; else its bytes, for R196 to refuse. -/
def bodyOf {α : Type} (body : List Byte) (shape : Bool) (read : α) : Body α :=
  if shape then .shaped read else .misshapen body

/-- Pairs of host service and agent service (10.6.1). -/
def pairsOf : List Byte → List (Byte × Byte)
  | h :: a :: rest => (h, a) :: pairsOf rest
  | _ => []

/-- SET_PROFILE's 23 bytes (10.6.1). -/
def readProfile (body : List Byte) : ProfileFields :=
  { set := setAt body 0, mask := halfAt body 3, rateCeiling := byteAt body 5, bootAllow := wordAt body 6,
    keyPress := halfAt body 10, autostart := byteAt body 12, autoRecover := byteAt body 13, recoverOff := halfAt body 14,
    currentLimit := halfAt body 16, tripBudget := wordAt body 18, inrushBlank := byteAt body 22 }

/-- The first ten fields of DIRECT and of PUSH, 16 bytes. -/
def readOperation (body : List Byte) : OperationFields :=
  { selector := byteAt body 0, group := byteAt body 1, set := setAt body 2, policyPresent := byteAt body 5,
    policy := byteAt body 6, k := byteAt body 7, service := byteAt body 8, timeout := wordAt body 9,
    replyPresent := byteAt body 13, replyMax := halfAt body 14 }

def readGroup (body : List Byte) : GroupFields :=
  { group := byteAt body 0, members := setAt body 2, policy := byteAt body 5, k := byteAt body 6, timeout := wordAt body 7,
    replyMax := halfAt body 11 }

/-- The 24 codes of SET_FIXTURE, after the clear flag. -/
def readCodes (body : List Byte) : Vector Byte 24 := Vector.ofFn fun i => byteAt body (1 + i.val)

/-- The command of a request kind and a body (10.6.1, R196). A SLOT_CONTROL whose action names no row, a DEFINE_GROUP and
a SET_FIXTURE whose flag is no flag byte have a body of the wrong shape (log 23). -/
def decodeRequest (kind : Nat) (tag : Tag) (body : List Byte) : Option Instr :=
  let n := body.length
  match kind with
  | 0x01 => some (.identify tag (bodyOf body (n == 0) ()))
  | 0x02 => some (.restart tag (bodyOf body (n == 0) ()))
  | 0x03 => some (.setProfile tag (bodyOf body (n == 23) (readProfile body)))
  | 0x04 =>
    some
      (match n, (byteAt body 3).toNat with
        | 4, 1 => .powerOn tag (.shaped (setAt body 0))
        | 4, 2 => .powerOff tag (.shaped (setAt body 0))
        | 4, 3 => .cycle tag (.shaped (setAt body 0))
        | 4, 4 => .resetSlot tag (.shaped (setAt body 0))
        | 4, 5 => .clearFault tag (.shaped (setAt body 0))
        | 4, 6 => .disable tag (.shaped (setAt body 0))
        | 4, 7 => .enable tag (.shaped (setAt body 0))
        | _, _ => .powerOn tag (.misshapen body))
  | 0x05 => some (.querySlots tag (bodyOf body (n == 3) (setAt body 0)))
  | 0x06 =>
    some
      (if byteAt body 1 = 1 then .undefineGroup tag (bodyOf body (n == 13) (readGroup body))
        else .defineGroup tag (bodyOf body (n == 13 && byteAt body 1 == 0) (readGroup body)))
  | 0x07 =>
    some
      (if byteAt body 0 = 1 then .setFixtureClear tag (bodyOf body (n == 25) (readCodes body))
        else .setFixtureLoad tag (bodyOf body (n == 25 && byteAt body 0 == 0) (readCodes body)))
  | 0x08 =>
    some
      (.setTranslation tag
        (bodyOf body (4 ≤ n && n == 4 + 2 * (byteAt body 3).toNat) ⟨setAt body 0, pairsOf (body.drop 4)⟩))
  | 0x09 => some (.direct tag (bodyOf body (16 ≤ n) ⟨readOperation body, body.drop 16⟩))
  | 0x0A => some (.push tag (bodyOf body (n == 17) ⟨readOperation body, byteAt body 16⟩))
  | 0x0B => some (.cancel tag (bodyOf body (n == 2) (halfAt body 0)))
  | 0x0C => some (.queryOperations tag (bodyOf body (n == 0) ()))
  | 0x0D => some (.imageDefine tag (bodyOf body (n == 3) ⟨byteAt body 0, byteAt body 1, byteAt body 2⟩))
  | 0x0E => some (.imageWrite tag (bodyOf body (5 ≤ n) ⟨byteAt body 0, wordAt body 1, body.drop 5⟩))
  | 0x0F => some (.imageCommit tag (bodyOf body (n == 5) ⟨byteAt body 0, wordAt body 1⟩))
  | 0x10 => some (.imageRelease tag (bodyOf body (n == 1) (byteAt body 0)))
  | 0x11 => some (.imageQuery tag (bodyOf body (n == 0) ()))
  | 0x12 => some (.measure tag (bodyOf body (n == 3) (setAt body 0)))
  | 0x13 => some (.pressKey tag (bodyOf body (n == 5) ⟨setAt body 0, halfAt body 3⟩))
  | 0x14 => some (.readConsole tag (bodyOf body (n == 1) (byteAt body 0)))
  | 0x15 => some (.openBridge tag (bodyOf body (n == 2) ⟨byteAt body 0, byteAt body 1⟩))
  | 0x16 => some (.bridgeData tag (bodyOf body (1 ≤ n) ⟨byteAt body 0, body.drop 1⟩))
  | 0x17 => some (.closeBridge tag (bodyOf body (n == 1) (byteAt body 0)))
  | 0x18 => some (.readEvents tag (bodyOf body (n == 3) (setAt body 0)))
  | 0x19 => some (.setNoticeMask tag (bodyOf body (n == 2) (halfAt body 0)))
  | _ => none

/-- The first check of R185 that a transfer fails: the tag and the kind its receipt echoes, and whether the code is
UNKNOWN_KIND (else MALFORMED). -/
def transferFailure (transfer : List Byte) : Option (Tag × Byte × Bool) :=
  let n := transfer.length
  let kind := byteAt transfer 0
  let tag := halfAt transfer 2
  if n < 6 then some (0, 0, false)
  else if Config.messageLimit < n then some (tag, kind, false)
  else if fieldAt transfer 4 2 ≠ n - 6 then some (tag, kind, false)
  else if kind.toNat < 1 || 25 < kind.toNat then some (tag, kind, true)
  else if byteAt transfer 1 ≠ 0 then some (tag, kind, false)
  else none

/-- The command a transfer of the bulk OUT pipe stands for, for any bytes (R185). -/
def decodeTransfer (transfer : List Byte) : Instr :=
  match transferFailure transfer with
  | some _ => .malformedTransfer transfer
  | none =>
    match decodeRequest (byteAt transfer 0).toNat (halfAt transfer 2) (transfer.drop 6) with
    | some c => c
    | none => .malformedTransfer transfer

/-- The command a word of the opcode table spells: the table gives no row any bits. -/
def decodeTableWord (_nbits _w : Nat) : Option Instr := none

end Sys2Proof
end

