-- ==== Sys2Proof/Machine/State.lean ====
section
/-! DEFINITION. The state of the NF2400: every register, table, queue, timer, buffer and pin the spec gives it, as plain
data, with its value right after power-on reset. INVENTORY.md, heading State, lists each field with its rule. -/

namespace Sys2Proof.Machine

/-! ### Stops -/

/-- Why the machine stops with a fault. -/
inductive Fault where
  /-- A store access would fall outside the 8,388,608 bytes of the image store (R117, R120). Raised by
  IMAGE_WRITE_ACCESS_DONE, STREAM_CHUNK_READ and VERIFICATION_JOB_END. R122 and R126 keep every access inside, so no
  state in reach raises it. Safe (log 25). -/
  | storeAddressOutside
  deriving DecidableEq, Repr

/-- Why a command has no outcome. -/
inductive Refusal where
  /-- Raised by `exec` alone, for a command that has no meaning yet. Every command of this model has one. Safe. -/
  | notModelled (mnemonic : String)
  deriving DecidableEq, Repr

/-! ### Time -/

/-- A timed matter: a start count and a length in milliseconds (R101). -/
structure Timer where
  start : Count
  length : Nat
  deriving DecidableEq, Repr

/-! ### Slots -/

/-- The thirteen slot states (1.1). -/
inductive SlotState where
  | unfitted | vacant | inhibited | off | powering | booting | ready | busy | aborting | streaming | bridge
  | recovering | fault
  deriving DecidableEq, Repr

/-- Restart causes (R20). -/
inductive RestartCause where
  | none | host | part | self
  deriving DecidableEq, Repr

/-- Fault causes (R17). -/
inductive FaultCause where
  | nestCode | noAgent | hung | linkDegraded | linkLost | overcurrent | short
  deriving DecidableEq, Repr

/-- A slot's fault record (R18). -/
structure FaultRecord where
  cause : FaultCause
  time : Count
  detail : Half
  further : Nat
  deriving DecidableEq, Repr

/-- The agent identity a HELLO brings (R12, R39). -/
structure AgentIdentity where
  model : Half
  version : Half
  maxRate : Byte
  deriving DecidableEq, Repr

/-- The slot profile (R21). -/
structure Profile where
  rateCeiling : Nat
  bootAllow : Nat
  keyPress : Nat
  autostart : Bool
  autoRecover : Bool
  recoverOff : Nat
  currentLimit : Nat
  tripBudget : Nat
  inrushBlank : Nat
  deriving DecidableEq, Repr

/-- The purpose of a rate exchange (R30). -/
inductive ExchangePurpose where
  | boot | stepDown
  deriving DecidableEq, Repr

/-- A rate exchange in progress; its wait runs once the LINK frame has been sent (R42). -/
structure Exchange where
  target : Nat
  purpose : ExchangePurpose
  wait : Option Timer
  deriving DecidableEq, Repr

/-- Where the receiver stands (R30, R33): within a frame it holds the bytes taken after the start byte, and the 2 ms stall
timer runs (R101; log 16). -/
inductive ReceiverPhase where
  | hunting
  | withinFrame (bytes : List Byte) (stall : Timer)
  deriving DecidableEq, Repr

/-- The link state record (R30). -/
structure LinkState where
  rate : Nat
  txCounter : Byte
  expected : Byte
  score : Nat
  awaitingHello : Bool
  stepDownMark : Bool
  exchange : Option Exchange
  receiver : ReceiverPhase
  deriving DecidableEq, Repr

/-- A frame raised and not yet begun: it takes its seq when its first byte is sent (R34). -/
structure RaisedFrame where
  kind : Byte
  service : Byte
  payload : List Byte
  deriving DecidableEq, Repr

/-- A slot engine's transmitter (R34): the frame on the line, the frames waiting in the order raised, and the break of
an orderly bridge exit (R171). `left` is the model's own: the steps of the time base until the last byte of a DIRECTIVE or
BRIDGE_ENTER on the line has been sent, and 0 with any other frame or none (log 10). -/
structure Transmitter where
  sending : Option Frame
  waiting : List RaisedFrame
  breaking : Option Timer
  left : Nat
  deriving DecidableEq, Repr

/-- What an operation does at each member: the directive's bytes, or the image with the copies made at acceptance
(R76, R134). -/
inductive Work where
  | directive (payload : List Byte)
  | push (image : ImageId) (generation : Half) (length : Nat) (crc : Word)
  deriving DecidableEq, Repr

/-- An entry of a directive queue, with the copies the member's start needs (R76) and its queue limit (R109). -/
structure QueueEntry where
  tag : Tag
  service : Byte
  accepted : Count
  timeout : Nat
  work : Work
  deriving DecidableEq, Repr

/-- The read of a stream (R135). `granted` is a waiting read whose access is in progress (R133); `failed` is one that met
an uncorrectable word, after which the stream waits for its damage stop (R139; log 27). -/
inductive ReadState where
  | none
  | waiting
  | granted
  | held (data : List Byte)
  | failed
  deriving DecidableEq, Repr

inductive StreamPhase where
  | opening | sending | closing
  deriving DecidableEq, Repr

/-- The stream fields of an in-flight record (R135). -/
structure StreamRecord where
  image : ImageId
  generation : Half
  length : Nat
  crc : Word
  referenceHeld : Bool
  nextChunk : Nat
  bytesSent : Nat
  credit : Nat
  read : ReadState
  phase : StreamPhase
  deriving DecidableEq, Repr

inductive Transaction where
  | directive
  | stream (r : StreamRecord)
  deriving DecidableEq, Repr

/-- The in-flight record (R77): an owner of `none` is the orphan mark. The window is stopped in ABORTING (R107). -/
structure InFlight where
  owner : Option Tag
  window : Option Timer
  transaction : Transaction
  deriving DecidableEq, Repr

inductive AllowanceKind where
  | boot | resync
  deriving DecidableEq, Repr

/-- The running boot allowance (R11) or resync allowance (R171). -/
structure Allowance where
  kind : AllowanceKind
  timer : Timer
  deriving DecidableEq, Repr

inductive Trip where
  | clear | overcurrent | short
  deriving DecidableEq, Repr

/-- The power block's slot record (R143). `blankLength`, `period` and `sampleDue` are the model's own (log 3, log 13). -/
structure PowerRecord where
  vbus : Bool
  periodStart : Option Count
  blanking : Option Timer
  history : List Nat
  accumulator : Nat
  trip : Trip
  key : Option Timer
  blankLength : Nat
  period : Nat
  sampleDue : Bool
  deriving DecidableEq, Repr

/-- A fault request of the power block, with the powered period it belongs to (R152). -/
structure FaultRequest where
  cause : FaultCause
  detail : Half
  period : Nat
  deriving DecidableEq, Repr

/-- A bridge record (R163). An idle class of `none` runs no idle timer (R167). -/
structure BridgeRecord where
  rawRate : Nat
  idleClass : Option Nat
  idleTimer : Option Timer
  output : List Byte
  gathering : Option Timer
  deriving DecidableEq, Repr

/-- The eight event kinds (R176). -/
inductive EventKind where
  | attach | detach | agentUp | restartSelf | fault | recovery | text | inhibit
  deriving DecidableEq, Repr

/-- Causes of a drop (R83). -/
inductive DropCause where
  | detached | interlock | disabled | agentRestart | slotFault | slotReset | powerOff | imageDamaged
  deriving DecidableEq, Repr

/-- Result classes (R32). -/
inductive ResultClass where
  | pass | fail | error | unsupported | aborted
  deriving DecidableEq, Repr

/-- What a slot engine reports about a member (R79). -/
inductive ReportBody where
  | start (time : Count) (window : Nat)
  | result (time : Count) (cls : ResultClass) (payload : List Byte)
  | windowExpiry
  | queueLimit
  | drop (cause : DropCause)
  | streamDamage
  deriving DecidableEq, Repr

structure Report where
  tag : Tag
  body : ReportBody
  deriving DecidableEq, Repr

/-- What the fan-out engine asks of a slot engine (R74, R78). -/
inductive SlotRequest where
  | append (entry : QueueEntry)
  | withdraw (tag : Tag)
  deriving DecidableEq, Repr

/-- A damage stop names the image and its generation (R142). -/
structure DamageStop where
  image : ImageId
  generation : Half
  deriving DecidableEq, Repr

/-- One slot: its pins, its slot record, its link, its queue and in-flight record, its timers, its share of the power
block, its console ring and bridge, its events, and the messages to and from it that wait to be taken. -/
structure Slot where
  state : SlotState
  contact : Bool
  nestLines : Byte
  present : Bool
  debounce : Option Timer
  disabled : Bool
  lastNestCode : Option Byte
  link : LinkState
  tx : Transmitter
  queue : List QueueEntry
  inFlight : Option InFlight
  restartCause : RestartCause
  recoveryAttempts : Nat
  agent : Option AgentIdentity
  faultRecord : Option FaultRecord
  faultPeriod : Option Nat
  pendingCeiling : Option Nat
  profile : Profile
  translation : List (Byte × Byte)
  settle : Option Timer
  allowance : Option Allowance
  abortWait : Option Timer
  offTimer : Option Timer
  power : PowerRecord
  ring : List Byte
  wrapped : Bool
  bridge : Option BridgeRecord
  messageWaiting : Bool
  pendingEvents : BitVec 8
  agentUpCause : Option RestartCause
  noticeWaiting : Bool
  requests : List SlotRequest
  reports : List Report
  damageStops : List DamageStop
  faultRequests : List FaultRequest
  deriving DecidableEq, Repr

/-! ### Groups and operations -/

/-- A completion policy, with QUORUM's count k (4.6). -/
inductive Policy where
  | all
  | any
  | quorum (k : Nat)
  deriving DecidableEq, Repr

/-- A DEFINED group entry (R55). -/
structure Group where
  members : SlotSet
  policy : Policy
  timeout : Nat
  reply : Nat
  deriving DecidableEq, Repr

inductive Source where
  | group (number : Nat)
  | explicit (set : SlotSet)
  deriving DecidableEq, Repr

inductive TimeoutStage where
  | queued | window
  deriving DecidableEq, Repr

inductive SkipCause where
  | state (found : SlotState)
  | queueFull
  deriving DecidableEq, Repr

inductive CancelCause where
  | host | earlyDone
  deriving DecidableEq, Repr

/-- What a member's RESULT leaves in its record and its gather cell (R69, R81, R85). -/
structure MemberResult where
  cls : ResultClass
  responseMs : Count
  length : Nat
  truncated : Bool
  bytes : List Byte
  deriving DecidableEq, Repr

/-- A member's status, with its cause, stage or result (R69). -/
inductive MemberStatus where
  | queued
  | active
  | passed (r : MemberResult)
  | failed (r : MemberResult)
  | timedOut (stage : TimeoutStage)
  | dropped (cause : DropCause)
  | skipped (cause : SkipCause)
  | cancelled (cause : CancelCause)
  deriving DecidableEq, Repr

/-- A member record (R69); `started` holds the start time and the window as reported at the start. -/
structure Member where
  slot : SlotId
  status : MemberStatus
  started : Option (Count × Nat)
  deriving DecidableEq, Repr

inductive Verdict where
  | pass | fail | empty | cancelled
  deriving DecidableEq, Repr

inductive EntryPhase where
  | live
  | reporting (verdict : Verdict) (completed : Count)
  deriving DecidableEq, Repr

/-- An entry of the Operation Table (R68). -/
structure Operation where
  tag : Tag
  work : Work
  source : Source
  policy : Policy
  service : Byte
  timeout : Nat
  reply : Nat
  accepted : Count
  members : List Member
  passed : Nat
  failed : Nat
  final : Nat
  reservation : Nat
  phase : EntryPhase
  deriving DecidableEq, Repr

/-! ### The image store -/

inductive ImageState where
  | free | clearing | loading | verifying | ready | damaged
  deriving DecidableEq, Repr

inductive CommitOutcome where
  | none | matched | mismatch
  deriving DecidableEq, Repr

/-- The five size classes (R119). -/
inductive SizeClass where
  | kib256 | kib512 | mib1 | mib2 | mib4
  deriving DecidableEq, Repr

/-- The fields of an image that is not FREE (R119). -/
structure ImageFields where
  base : Nat
  size : SizeClass
  highMark : Nat
  expectedCrc : Option Word
  computedCrc : Option Word
  outcome : CommitOutcome
  corrected : Nat
  references : Nat
  deriving DecidableEq, Repr

/-- What reading one store word finds (R117). -/
inductive WordCheck where
  | clean
  | corrected
  | uncorrectable
  deriving DecidableEq, Repr

/-- An Image Table record (R119). A FREE image holds
`ImageFields.absent`. -/
structure Image where
  state : ImageState
  generation : Half
  fields : ImageFields
  deriving DecidableEq, Repr

/-- A job of the clear/verify engine (R124). -/
inductive Job where
  | clear (image : ImageId)
  | verify (image : ImageId)
  deriving DecidableEq, Repr

/-- The access the store arbiter has granted and that is not yet done (R132, R133). A stream's read names its image and the
block of the store it reads, which stand when its stream has stopped. -/
inductive Grant where
  | writePath
  | engine
  | reader (slot : SlotId) (image : ImageId) (block : Nat)
  deriving DecidableEq, Repr

/-! ### Messages to the test host -/

/-- Result codes (10.6.2). -/
inductive ResultCode where
  | accepted | clamped | malformed | unknownKind | badSlot | badGroup | badImage | badBase | badCode | duplicateCode
  | duplicateKey | duplicateTag | tableFull | noRoom | tooLong | wrongState | overlap | inUse | notFound | tooLate
  deriving DecidableEq, Repr

inductive SlotOutcome where
  | ok | wrongState
  deriving DecidableEq, Repr

/-- IDENTIFY's reply (R192). -/
structure Identity where
  banksTwo : Bool
  ceilingFour : Bool
  now : Count
  deriving DecidableEq, Repr

/-- The in-flight field of a slot record (R28). -/
inductive InFlightView where
  | none
  | directive (tag : Tag)
  | stream (tag : Tag)
  | orphan
  deriving DecidableEq, Repr

/-- A slot record of QUERY_SLOTS (R28). -/
structure SlotRecord where
  slot : SlotId
  state : SlotState
  present : Bool
  disabled : Bool
  interlockOpen : Bool
  lastNestCode : Option Byte
  rate : Nat
  score : Nat
  queueDepth : Nat
  inFlight : InFlightView
  restartCause : RestartCause
  recoveryAttempts : Nat
  agent : Option AgentIdentity
  faultRecord : Option FaultRecord
  pendingCeiling : Option Nat
  profile : Profile
  deriving DecidableEq, Repr

/-- A summary of QUERY_OPERATIONS (R94). -/
structure OperationSummary where
  tag : Tag
  isPush : Bool
  reporting : Bool
  members : Nat
  passed : Nat
  failed : Nat
  final : Nat
  deriving DecidableEq, Repr

/-- A measurement record (R157); `keyRemaining` is absent while the key is released. -/
structure Measurement where
  slot : SlotId
  vbus : Bool
  blanking : Bool
  keyRemaining : Option Nat
  trip : Trip
  sampleCount : Nat
  latest : Nat
  mean : Nat
  accumulator : Nat
  deriving DecidableEq, Repr

/-- An entry of READ_EVENTS's reply (R180). -/
structure EventEntry where
  slot : SlotId
  pending : BitVec 8
  agentUpCause : Option RestartCause
  deriving DecidableEq, Repr

/-- The reply data of a receipt (R187, 10.6.3). -/
inductive Reply where
  | none
  | identity (i : Identity)
  | outcomes (l : List (SlotId × SlotOutcome))
  | slots (l : List SlotRecord)
  | accepted (members queued : Nat)
  | operations (freeGather : Nat) (l : List OperationSummary)
  | highMark (n : Nat)
  | images (freeUnits : Nat) (l : List Image)
  | measurements (l : List Measurement)
  | console (wrapped : Bool) (bytes : List Byte)
  | freeSpace (n : Nat)
  | discarded (n : Nat)
  | events (l : List EventEntry)
  | mask (m : BitVec 8)
  deriving DecidableEq, Repr

/-- A receipt (R187). -/
structure Receipt where
  tag : Tag
  kind : Byte
  result : ResultCode
  detail : Half
  reply : Reply
  deriving DecidableEq, Repr

/-- A gather report (R95, R96): the member records are the entry's own, final ones. -/
structure GatherReport where
  tag : Tag
  work : Work
  verdict : Verdict
  policy : Policy
  service : Byte
  timeout : Nat
  reply : Nat
  accepted : Count
  elapsed : Count
  members : List Member
  deriving DecidableEq, Repr

/-- A BRIDGE_OUT message (R168). -/
structure BridgeOut where
  slot : SlotId
  loss : Bool
  bytes : List Byte
  deriving DecidableEq, Repr

/-- A notice as begun (R179). -/
structure Notice where
  slot : SlotId
  pending : BitVec 8
  agentUpCause : Option RestartCause
  time : Count
  deriving DecidableEq, Repr

/-- The uplink classes whose messages a command reports as sent (R188); a notice's sending has no further effect. -/
inductive UplinkClass where
  | receipt | gather | bridgeOut
  deriving DecidableEq, Repr

/-- The uplink arbiter (10.2): each class oldest first. The message being sent is the oldest of the class `sending`
names, and waits in its class until it has been sent. A notice being sent is `noticeOnPipe`; `turns` is the model's own: the
classes that have been the first to hold a message since that notice began, one of which the arbiter chooses when it ends
(log 11). -/
structure Uplink where
  receipts : List Receipt
  gathers : List GatherReport
  bridgeOuts : List BridgeOut
  notices : List SlotId
  sending : Option UplinkClass
  noticeOnPipe : Option Notice
  turns : List UplinkClass
  deriving DecidableEq, Repr

/-- A request taken and not yet answered (R186): an IMAGE_WRITE with the offset and the data of the accesses still to be
done, or an OPEN_BRIDGE deferred behind a rate exchange (R162). -/
inductive InProgress where
  | imageWrite (tag : Tag) (image : ImageId) (offset : Nat) (data : List Byte) (discardReceipt : Bool)
  | openBridge (tag : Tag) (slot : SlotId) (idleClass : Option Nat)
  deriving DecidableEq, Repr

/-- The control port (10.1). -/
structure Port where
  configured : Bool
  inProgress : Option InProgress
  intakeHold : Bool
  deriving DecidableEq, Repr

/-- A drawer's interlock (R7): the input, the level taken, and the settling timer; `true` is open. -/
structure Interlock where
  input : Bool
  taken : Bool
  settling : Option Timer
  deriving DecidableEq, Repr

/-- The latched straps (R191): two banks or one, CEILING 4 or 3. -/
structure Straps where
  banksTwo : Bool
  ceilingFour : Bool
  deriving DecidableEq, Repr

/-! ### The whole state -/

/-- The state of the NF2400. `pending` is the queue of commands that wait. `groups` holds groups 1 to 31 at indexes 0 to
30; group 0 is computed (R56). `lostBits` holds the words of the store that do not read as written, in ascending order, each
once for each bit in error and at most twice (R117; log 8). `engineBlocks` counts the blocks of the job at the head of `jobs`
that are known to be done, and `engineAlone`, the model's own, says that the engine has also had the store to itself during
that job, for any number of blocks (R124; log 9). -/
structure State where
  pending : List Instr
  now : Count
  straps : Straps
  port : Port
  uplink : Uplink
  groups : Vector (Option Group) 31
  fixture : Option (Vector Byte 24)
  ops : List Operation
  images : Vector Image 8
  store : List Host.Cell
  lostBits : List Nat
  jobs : List Job
  engineBlocks : Nat
  engineAlone : Bool
  arbiterPointer : Fin 26
  granted : Option Grant
  interlockA : Interlock
  interlockB : Interlock
  noticeMask : BitVec 8
  slots : Vector Slot 24
  deriving DecidableEq, Repr

/-! ### Values at rest and after power-on reset -/

/-- The rest values of the link state (R30). -/
def LinkState.rest : LinkState :=
  { rate := 0, txCounter := 0, expected := 0, score := Config.scoreStart, awaitingHello := true, stepDownMark := false,
    exchange := none, receiver := .hunting }

/-- A transmitter with nothing to send. -/
def Transmitter.idle : Transmitter := { sending := none, waiting := [], breaking := none, left := 0 }

/-- The largest rate_ceiling: 4, or 3 with strap CEILING low (R191). -/
def Straps.ceiling (p : Straps) : Nat := if p.ceilingFour then 4 else 3

/-- The default profile (R21). -/
def Profile.default (ceiling : Nat) : Profile :=
  { rateCeiling := ceiling, bootAllow := 30000, keyPress := 1500, autostart := true, autoRecover := false,
    recoverOff := 2000, currentLimit := 1500, tripBudget := 20000, inrushBlank := 50 }

/-- The power-on values of the power block's record (R143). -/
def PowerRecord.initial : PowerRecord :=
  { vbus := false, periodStart := none, blanking := none, history := [], accumulator := 0, trip := .clear, key := none,
    blankLength := 0, period := 0, sampleDue := false }

/-- A slot's power-on values, in the state given, with its pins as given (R29, R65, R143, R159, R175). -/
def Slot.initial (state : SlotState) (ceiling : Nat) (contact : Bool) (nestLines : Byte) : Slot :=
  { state := state, contact := contact, nestLines := nestLines, present := false, debounce := none, disabled := false,
    lastNestCode := none, link := LinkState.rest, tx := Transmitter.idle, queue := [], inFlight := none,
    restartCause := .none, recoveryAttempts := 0, agent := none, faultRecord := none, faultPeriod := none,
    pendingCeiling := none, profile := Profile.default ceiling, translation := [], settle := none, allowance := none,
    abortWait := none, offTimer := none, power := PowerRecord.initial, ring := [], wrapped := false, bridge := none,
    messageWaiting := false, pendingEvents := 0, agentUpCause := none, noticeWaiting := false, requests := [],
    reports := [], damageStops := [], faultRequests := [] }

/-- The fields of a FREE image, all absent (R119). -/
def ImageFields.absent : ImageFields :=
  { base := 0, size := .kib256, highMark := 0, expectedCrc := none, computedCrc := none, outcome := .none,
    corrected := 0, references := 0 }

def Image.initial : Image := { state := .free, generation := 0, fields := ImageFields.absent }

def Uplink.empty : Uplink :=
  { receipts := [], gathers := [], bridgeOuts := [], notices := [], sending := none, noticeOnPipe := none, turns := [] }

/-- The machine right after power-on reset (R29, R194), with both strap inputs high, both drawers closed and no handset
seated (DESIGN CHOICE, log 5): every slot VACANT. -/
def State.reset : State :=
  { pending := [], now := 0, straps := { banksTwo := true, ceilingFour := true },
    port := { configured := false, inProgress := none, intakeHold := false }, uplink := Uplink.empty,
    groups := Vector.replicate 31 none, fixture := none, ops := [], images := Vector.replicate 8 Image.initial,
    store := [], lostBits := [], jobs := [], engineBlocks := 0, engineAlone := false, arbiterPointer := 0,
    granted := none,
    interlockA := { input := false, taken := false, settling := none },
    interlockB := { input := false, taken := false, settling := none }, noticeMask := 0xFF,
    slots := Vector.replicate 24 (Slot.initial .vacant 4 false 0) }

end Sys2Proof.Machine
end

