-- ==== Sys2Proof/Machine/Operands.lean ====
section
/-! DEFINITION. Operand forms: slot sets, slot, group and image numbers, code bytes, clamping, the arithmetic
of allowances (00_scope.md, Conventions; 10.6; chapter 5). -/

namespace Sys2Proof.Machine

/-- To clamp a value to a range (00_scope.md, Ranges and arithmetic). -/
def clampTo (lo hi v : Nat) : Nat := if v < lo then lo else if hi < v then hi else v

/-- The ceiling of x / y in whole numbers (00_scope.md; R106). -/
def ceilDiv (x y : Nat) : Nat := (x + y - 1) / y

/-- The slots of a slot set, in ascending order. -/
def slotsOf (m : SlotSet) : List SlotId := (List.finRange 24).filter fun i => m.getLsbD i.val

/-- The number of slots in a slot set. -/
def slotCount (m : SlotSet) : Nat := (slotsOf m).length

/-- The fitted slots: all 24, or slots 0 to 11 with strap BANKS at 1 (R2). -/
def Straps.fittedSet (p : Straps) : SlotSet := if p.banksTwo then 0xFFFFFF else 0x000FFF

def Straps.fitted (p : Straps) (i : SlotId) : Bool := p.fittedSet.getLsbD i.val

/-- Whether a slot set names an UNFITTED slot (R2). -/
def Straps.namesUnfitted (p : Straps) (m : SlotSet) : Bool := m &&& ~~~p.fittedSet != 0

/-- The bank of a slot (R7). -/
def bankOf (i : SlotId) : Bank := if i.val < 12 then .a else .b

/-- The slots of a bank, in ascending order. -/
def bankSlots (k : Bank) : List SlotId := (List.finRange 24).filter fun i => bankOf i = k

/-- A slot number of a request: none where it is above 23 or names an UNFITTED slot, which answers BAD_SLOT (R2). -/
def Straps.slotNumber (p : Straps) (b : Byte) : Option SlotId :=
  if h : b.toNat < 24 then if p.fitted ⟨b.toNat, h⟩ then some ⟨b.toNat, h⟩ else none else none

/-- An image number of a request: none above 7, which answers BAD_IMAGE (R121). -/
def imageNumber (b : Byte) : Option ImageId := if h : b.toNat < 8 then some ⟨b.toNat, h⟩ else none

/-- A policy code (10.6.2), with the k of QUORUM still to be clamped. -/
def policyCode (code : Byte) (k : Nat) : Option Policy :=
  match code.toNat with
  | 0 => some .all
  | 1 => some .any
  | 2 => some (.quorum k)
  | _ => none

/-- A size class code (10.6.2). -/
def sizeClassCode (code : Byte) : Option SizeClass :=
  match code.toNat with
  | 0 => some .kib256
  | 1 => some .kib512
  | 2 => some .mib1
  | 3 => some .mib2
  | 4 => some .mib4
  | _ => none

/-- An idle class code (10.6.2): the outer `none` is no class, the inner one is idle class none. -/
def idleClassCode (code : Byte) : Option (Option Nat) :=
  match code.toNat with
  | 0 => some none
  | 1 => some (some 500)
  | 2 => some (some 2000)
  | 3 => some (some 8000)
  | _ => none

/-- A result class, the service field of a RESULT (R31, 10.6.2). -/
def resultClassCode (code : Byte) : Option ResultClass :=
  match code.toNat with
  | 0 => some .pass
  | 1 => some .fail
  | 2 => some .error
  | 3 => some .unsupported
  | 4 => some .aborted
  | _ => none

/-- Units of a window (R120). -/
def SizeClass.units : SizeClass → Nat
  | .kib256 => 1
  | .kib512 => 2
  | .mib1 => 4
  | .mib2 => 8
  | .mib4 => 16

/-- Bytes of a window (R120). -/
def SizeClass.bytes (c : SizeClass) : Nat := c.units * Config.unitBytes

/-- The number of ones among a nest code's eight bits (R61). -/
def codeWeight (b : Byte) : Nat := ((List.range 8).filter fun i => b.getLsbD i).length

/-- A code that has exactly four of its eight bits set (R61). -/
def validCode (b : Byte) : Bool := codeWeight b == 4

/-- The agent service of a host service (R67). -/
def translate (pairs : List (Byte × Byte)) (service : Byte) : Byte :=
  match pairs.find? fun p => p.1 == service with
  | some p => p.2
  | none => service

/-! ### Request kind codes (10.6.1) -/

def codeIdentify : Byte := 0x01
def codeRestart : Byte := 0x02
def codeSetProfile : Byte := 0x03
def codeSlotControl : Byte := 0x04
def codeQuerySlots : Byte := 0x05
def codeDefineGroup : Byte := 0x06
def codeSetFixture : Byte := 0x07
def codeSetTranslation : Byte := 0x08
def codeDirect : Byte := 0x09
def codePush : Byte := 0x0A
def codeCancel : Byte := 0x0B
def codeQueryOperations : Byte := 0x0C
def codeImageDefine : Byte := 0x0D
def codeImageWrite : Byte := 0x0E
def codeImageCommit : Byte := 0x0F
def codeImageRelease : Byte := 0x10
def codeImageQuery : Byte := 0x11
def codeMeasure : Byte := 0x12
def codePressKey : Byte := 0x13
def codeReadConsole : Byte := 0x14
def codeOpenBridge : Byte := 0x15
def codeBridgeData : Byte := 0x16
def codeCloseBridge : Byte := 0x17
def codeReadEvents : Byte := 0x18
def codeSetNoticeMask : Byte := 0x19

/-! ### Allowances (chapter 5) -/

/-- The allowance of W wire bytes at a rate index (R104, R106). -/
def allowanceOf (wire rateIndex : Nat) : Nat := ceilDiv (wire * 10000) (Config.rate rateIndex)

/-- The wire bytes of a directive (R104). -/
def directiveWire (payload : Nat) : Nat := payload + 256

/-- The chunk count of an image of N bytes (R105). -/
def chunkCount (length : Nat) : Nat := ceilDiv length Config.blockBytes

/-- The wire bytes of a push (R105). -/
def pushWire (length : Nat) : Nat := length + 12 * chunkCount length + 20 + 256

/-- The window of a member (R104, R105). -/
def memberWindow (work : Work) (timeout rateIndex : Nat) : Nat :=
  match work with
  | .directive payload => timeout + allowanceOf (directiveWire payload.length) rateIndex
  | .push _ _ length _ => min (timeout + allowanceOf (pushWire length) rateIndex) Config.windowLimit

/-- The wire bytes a stream has still to send at a chunk boundary (R113). -/
def remainingWire (r : StreamRecord) : Nat :=
  (r.length - r.bytesSent) + 12 * (chunkCount r.length - r.nextChunk) + 256

/-- A window's length after a step-down from rate index `old` to `new` during a stream (R113). -/
def extendedWindow (length : Nat) (r : StreamRecord) (old new : Nat) : Nat :=
  min (length + (allowanceOf (remainingWire r) new - allowanceOf (remainingWire r) old)) Config.windowLimit

end Sys2Proof.Machine
end

