-- ==== Sys2Proof/Machine/Flags.lean ====
section
/-! DEFINITION. Check values and flag fields: the two CRCs, event bits, clamp masks (00_scope.md, Conventions; R187;
10.6.2; 10.6.3). -/

namespace Sys2Proof.Machine

/-- One bit of the CRC-16: polynomial 0x1021, most significant bit first. -/
def crc16Bit (c : BitVec 16) : BitVec 16 := if c.msb then (c <<< 1) ^^^ 0x1021 else c <<< 1

def crc16Byte (c : BitVec 16) (b : Byte) : BitVec 16 :=
  crc16Bit <| crc16Bit <| crc16Bit <| crc16Bit <| crc16Bit <| crc16Bit <| crc16Bit <| crc16Bit <|
    c ^^^ (b.setWidth 16 <<< 8)

/-- The slot link check (00_scope.md, CRC-16). -/
def crc16 (bytes : List Byte) : BitVec 16 := bytes.foldl crc16Byte 0xFFFF

/-- One bit of the CRC-32: reflected polynomial 0xEDB88320. -/
def crc32Bit (c : BitVec 32) : BitVec 32 := if c.getLsbD 0 then (c >>> 1) ^^^ 0xEDB88320 else c >>> 1

def crc32Byte (c : BitVec 32) (b : Byte) : BitVec 32 :=
  crc32Bit <| crc32Bit <| crc32Bit <| crc32Bit <| crc32Bit <| crc32Bit <| crc32Bit <| crc32Bit <| c ^^^ b.setWidth 32

/-- The image check (00_scope.md, CRC-32). -/
def crc32 (bytes : List Byte) : BitVec 32 := bytes.foldl crc32Byte 0xFFFFFFFF ^^^ 0xFFFFFFFF

/-- The bit of an event kind in a pending set and in the notice mask (10.6.2). -/
def EventKind.bit : EventKind → BitVec 8
  | .attach => 0x01
  | .detach => 0x02
  | .agentUp => 0x04
  | .restartSelf => 0x08
  | .fault => 0x10
  | .recovery => 0x20
  | .text => 0x40
  | .inhibit => 0x80

/-- Whether a set of event kinds holds a kind. -/
def hasEvent (m : BitVec 8) (k : EventKind) : Bool := m &&& k.bit != 0

/-- A 16-bit field whose bit i is the i-th flag, from 0. -/
def maskOf : List Bool → Half
  | [] => 0
  | b :: bs => (if b then 1 else 0) ||| (maskOf bs <<< 1)

/-- CLAMPED when any value was clamped, else ACCEPTED (R22, R58, R71, R155). -/
def clampResult (mask : Half) : ResultCode := if mask = 0 then .accepted else .clamped

/-- An 8-bit flags field whose bit i is the i-th flag, from 0 (10.6.3). -/
def flagByte (l : List Bool) : Byte := (maskOf l).setWidth 8

end Sys2Proof.Machine
end

