-- ==== Sys2Proof/Machine/Ops.lean ====
section
/-! DEFINITION. The named operations every command is built from: the time base and its timers, a slot's record, the image
store's bytes, the control port and the uplink, events, the messages between blocks, the transmitter and the store
arbiter. -/

namespace Sys2Proof.Machine

/-! ### The time base and timers (R100, R101) -/

/-- The counts between a timer's start and now, modulo 2^32 (R101). -/
def elapsed (now : Count) (t : Timer) : Nat := (now - t.start).toNat

/-- A timer has reached its expiry count (R101; log 4). -/
def due (now : Count) (t : Timer) : Bool := t.length ≤ elapsed now t

/-- A timer that runs and has reached its expiry count. -/
def dueSome (now : Count) : Option Timer → Bool
  | some t => due now t
  | none => false

/-- A timer started now; a length of 0 starts none (R101). -/
def startTimer (now : Count) (length : Nat) : Option Timer := if length = 0 then none else some ⟨now, length⟩

/-! ### A slot's record -/

/-- The seven powered states (1.1, R1). -/
def SlotState.powered : SlotState → Bool
  | .powering | .booting | .ready | .busy | .aborting | .streaming | .bridge => true
  | _ => false

/-- The states in which the link is framed (R38). -/
def SlotState.framed : SlotState → Bool
  | .booting | .ready | .busy | .aborting | .streaming => true
  | _ => false

/-- The states in which a slot takes queue entries (R72). -/
def SlotState.queueing : SlotState → Bool
  | .powering | .booting | .ready | .busy | .aborting | .streaming | .recovering => true
  | _ => false

def State.slot (s : State) (i : SlotId) : Slot := s.slots.get i

def State.setSlot (s : State) (i : SlotId) (x : Slot) : State := { s with slots := s.slots.set i.val x i.isLt }

def State.modSlot (s : State) (i : SlotId) (f : Slot → Slot) : State := s.setSlot i (f (s.slot i))

def State.image (s : State) (k : ImageId) : Image := s.images.get k

def State.modImage (s : State) (k : ImageId) (f : Image → Image) : State :=
  { s with images := s.images.set k.val (f (s.image k)) k.isLt }

def State.interlock (s : State) : Bank → Interlock
  | .a => s.interlockA
  | .b => s.interlockB

def State.setInterlock (s : State) (k : Bank) (x : Interlock) : State :=
  match k with
  | .a => { s with interlockA := x }
  | .b => { s with interlockB := x }

/-- The interlock of a slot's bank reads open, as taken (R7). -/
def State.drawerOpen (s : State) (i : SlotId) : Bool := (s.interlock (bankOf i)).taken

/-- Group entry `n`: group 0 is fixed (R56), groups 1 to 31 are held, and no group above 31 exists (R60). -/
def State.group (s : State) (n : Nat) : Option Group :=
  if n = 0 then
    some { members := s.straps.fittedSet, policy := .all, timeout := Config.defaultTimeoutMs, reply := Config.defaultReply }
  else (s.groups[n - 1]?).join

/-! ### The image store's bytes (R117; log 7)

A list of cells, addresses strictly rising, none equal to what an unlisted address reads as. -/

/-- What an unlisted byte of the store reads as: the 0xFF of a clearing (R125; log 7). -/
def Memory.blank : Byte := 0xFF

def Memory.read : List Host.Cell → Nat → Byte
  | [], _ => Memory.blank
  | (b, v) :: rest, a => if a = b then v else Memory.read rest a

def Memory.write : List Host.Cell → Nat → Byte → List Host.Cell
  | [], a, v => if v = Memory.blank then [] else [(a, v)]
  | (b, w) :: rest, a, v =>
    if a < b then if v = Memory.blank then (b, w) :: rest else (a, v) :: (b, w) :: rest
    else if a = b then if v = Memory.blank then rest else (a, v) :: rest
    else (b, w) :: Memory.write rest a v

def Memory.writeBytes : List Host.Cell → Nat → List Byte → List Host.Cell
  | m, _, [] => m
  | m, a, v :: vs => Memory.writeBytes (Memory.write m a v) (a + 1) vs

def Memory.readBytes (m : List Host.Cell) (a n : Nat) : List Byte := (List.range n).map fun k => Memory.read m (a + k)

/-- Fill `n` bytes with 0xFF (R125). -/
def Memory.clear (m : List Host.Cell) (a n : Nat) : List Host.Cell := m.filter fun c => !(a ≤ c.1 && c.1 < a + n)

/-- Every address is above `lo`, they rise strictly, lie in the store, and no cell holds the blank value. -/
def Memory.wfAbove : Nat → List Host.Cell → Bool
  | _, [] => true
  | lo, (a, v) :: rest => lo ≤ a && a < Config.storeBytes && v != Memory.blank && Memory.wfAbove (a + 1) rest

/-- The canonical form of the store. -/
def Memory.wf (m : List Host.Cell) : Bool := Memory.wfAbove 0 m

/-! ### The code of each store word (R117; log 8)

A list of word numbers in ascending order: a word with one bit in error stands in it once, a word with two bits in error
twice, and a word that reads without error not at all. -/

/-- A word of the store loses a bit; more than two bits in error are as two (R117). -/
def Memory.loseBit (l : List Nat) (word : Nat) : List Nat :=
  if l.count word < 2 && word < Config.storeWords then l.orderedInsert (· ≤ ·) word else l

/-- The bits lost among `n` words from word `first`, each given by its number from `first`. -/
def Memory.loseBits (l : List Nat) (first n : Nat) (lost : List Nat) : List Nat :=
  (lost.filter (· < n)).foldl (fun l w => Memory.loseBit l (first + w)) l

/-- What a word's check finds (R117). -/
def Memory.check (l : List Nat) (word : Nat) : WordCheck :=
  match l.count word with
  | 0 => .clean
  | 1 => .corrected
  | _ => .uncorrectable

/-- `n` words from word `first` are written with fresh codes (R117). -/
def Memory.freshen (l : List Nat) (first n : Nat) : List Nat := l.filter fun w => !(first ≤ w && w < first + n)

/-- How many of `n` words from word `first` have one bit in error. -/
def Memory.corrected (l : List Nat) (first n : Nat) : Nat :=
  (l.filter fun w => first ≤ w && w < first + n && Memory.check l w == .corrected).length

/-- The first of `n` words from word `first` that has two bits in error. -/
def Memory.uncorrectable (l : List Nat) (first n : Nat) : Option Nat :=
  l.find? fun w => first ≤ w && w < first + n && Memory.check l w == .uncorrectable

/-- The canonical form of the list. -/
def Memory.codesWf (l : List Nat) : Bool :=
  l.Pairwise (· ≤ ·) && l.all fun w => l.count w ≤ 2 && w < Config.storeWords

/-! ### Images (6.2) -/

/-- The first store byte of an image's window (R120). -/
def Image.start (x : Image) : Nat := x.fields.base * Config.unitBytes

/-- The units of an image's window; a FREE image has none (R120). -/
def Image.units (x : Image) : Nat := if x.state = .free then 0 else x.fields.size.units

/-- Corrected words counted, saturating at 65,535 (R117). -/
def State.countCorrected (s : State) (k : ImageId) (n : Nat) : State :=
  s.modImage k fun x => { x with fields := { x.fields with corrected := min (x.fields.corrected + n) 65535 } }

/-! ### The control port and the uplink (chapter 10) -/

/-- The control port takes the next transfer (R184, R186). -/
def State.intakeOpen (s : State) : Bool :=
  s.port.configured && s.port.inProgress.isNone && !s.port.intakeHold && s.uplink.receipts.length < Config.receiptLimit

/-- A request is taken when intake is open, and is otherwise held back at the host with no effect (R186; log 2). -/
def State.request (s : State) (run : State → State) : State := if s.intakeOpen then run s else s

/-- The first of the classes RECEIPT, GATHER, BRIDGE_OUT that holds a message (R188). -/
def Uplink.firstClass (u : Uplink) : Option UplinkClass :=
  if u.receipts ≠ [] then some .receipt
  else if u.gathers ≠ [] then some .gather
  else if u.bridgeOuts ≠ [] then some .bridgeOut
  else none

/-- The message of the class given begins on a free pipe. While a notice is on the pipe the message waits for it to end,
and its class is one that may then be chosen (R188; log 11). -/
def Uplink.choose (u : Uplink) (c : UplinkClass) : Uplink :=
  if u.noticeOnPipe.isNone then { u with sending := some c }
  else if c ∈ u.turns then u
  else { u with turns := u.turns ++ [c] }

/-- When the pipe is free and the port CONFIGURED, the arbiter begins the oldest message of the first class (R188). A
notice is begun by NOTICE_BEGUN (log 11). -/
def State.arbitrate (s : State) : State :=
  if s.port.configured && s.uplink.sending.isNone then
    match s.uplink.firstClass with
    | some c => { s with uplink := s.uplink.choose c }
    | none => s
  else s

/-- The message of the class given is on the pipe: the arbiter has begun it, or may have begun it when a notice ended (R188;
log 11). -/
def Uplink.sends (u : Uplink) (c : UplinkClass) : Bool :=
  u.sending == some c || (u.sending.isNone && u.noticeOnPipe.isSome && c ∈ u.turns)

/-- The message on the pipe has been sent, and the pipe is free. -/
def Uplink.freed (u : Uplink) : Uplink := { u with sending := none, noticeOnPipe := none, turns := [] }

/-- Queue a receipt (R186, R187). -/
def State.answer (s : State) (tag : Tag) (kind : Byte) (result : ResultCode) (detail : Half := 0)
    (reply : Reply := .none) : State :=
  State.arbitrate { s with uplink := { s.uplink with receipts := s.uplink.receipts ++ [⟨tag, kind, result, detail, reply⟩] } }

/-- Hand a gather report to the uplink (R92). -/
def State.sendGather (s : State) (g : GatherReport) : State :=
  State.arbitrate { s with uplink := { s.uplink with gathers := s.uplink.gathers ++ [g] } }

/-- Hand a BRIDGE_OUT to the uplink (R168). -/
def State.sendBridgeOut (s : State) (m : BridgeOut) : State :=
  State.arbitrate { s with uplink := { s.uplink with bridgeOuts := s.uplink.bridgeOuts ++ [m] } }

/-- A request whose body has the wrong shape is refused MALFORMED (R196); else the command's own rule applies. -/
def State.requestWith {α : Type} (s : State) (tag : Tag) (kind : Byte) (body : Body α) (run : α → State → State) : State :=
  s.request fun s =>
    match body with
    | .misshapen _ => s.answer tag kind .malformed
    | .shaped fields => run fields s

/-! ### Events and notices (chapter 9) -/

/-- Queue a notice for a slot and set its notice-waiting flag (R178). -/
def State.queueNotice (s : State) (i : SlotId) : State :=
  State.modSlot { s with uplink := { s.uplink with notices := s.uplink.notices ++ [i] } } i
    fun x => { x with noticeWaiting := true }

/-- Raise an event kind for a slot: it is latched, and a new pending kind queues a notice when it is enabled and none
waits (R177, R178). -/
def State.raise (s : State) (i : SlotId) (k : EventKind) : State :=
  let x := s.slot i
  if hasEvent x.pendingEvents k then s
  else
    let t := s.modSlot i fun x => { x with pendingEvents := x.pendingEvents ||| k.bit }
    if hasEvent s.noticeMask k && !x.noticeWaiting then t.queueNotice i else t

/-- Raise AGENT_UP with the slot's restart cause, which replaces the agent-up cause (R12, R177). -/
def State.raiseAgentUp (s : State) (i : SlotId) : State :=
  (s.modSlot i fun x => { x with agentUpCause := some x.restartCause }).raise i .agentUp

/-! ### Messages between blocks (4.3; log 12) -/

/-- A slot engine's report to the fan-out engine, in the order made (R79). -/
def State.report (s : State) (i : SlotId) (r : Report) : State :=
  s.modSlot i fun x => { x with reports := x.reports ++ [r] }

/-- A request of the fan-out engine to a slot engine, in the order sent (R75). -/
def State.ask (s : State) (i : SlotId) (r : SlotRequest) : State :=
  s.modSlot i fun x => { x with requests := x.requests ++ [r] }

/-! ### The transmitter (R34) -/

/-- Frame kind codes (10.6.6). -/
def kindHello : Byte := 0x01
def kindLink : Byte := 0x02
def kindLinkAck : Byte := 0x03
def kindDirective : Byte := 0x04
def kindResult : Byte := 0x05
def kindAbort : Byte := 0x06
def kindText : Byte := 0x07
def kindStreamOpen : Byte := 0x08
def kindStreamCredit : Byte := 0x09
def kindStreamData : Byte := 0x0A
def kindBridgeEnter : Byte := 0x0B

/-- Frames whose last byte is no command of the table: DIRECTIVE and BRIDGE_ENTER leave the line as the time base steps
(log 10). -/
def selfEnding (kind : Byte) : Bool := kind == kindDirective || kind == kindBridgeEnter

/-- The steps of the time base that a frame of the kind and payload length given takes to leave the line by itself: its
payload and 8 bytes more (R31), at 10 bit times a byte (log 10). -/
def lineSteps (kind : Byte) (payload rateIndex : Nat) : Nat :=
  if selfEnding kind then allowanceOf (payload + 8) rateIndex else 0

/-- The line is free for the next frame: no break, and no frame whose end is still to come (R34, R171). -/
def Transmitter.free (t : Transmitter) : Bool := t.breaking.isNone && t.sending.isNone

/-- Begin a frame: it takes the transmit counter's value as its seq at its first byte (R34). -/
def Slot.beginFrame (x : Slot) (f : RaisedFrame) (rest : List RaisedFrame) : Slot :=
  { x with
    tx :=
      { x.tx with
        sending := some ⟨f.kind, x.link.txCounter, f.service, f.payload⟩, waiting := rest
        left := lineSteps f.kind f.payload.length x.link.rate }
    link := { x.link with txCounter := x.link.txCounter + 1 } }

/-- Begin the frame that was raised first, if the line is free. -/
def Slot.transmit (x : Slot) : Slot :=
  if x.tx.free then
    match x.tx.waiting with
    | [] => x
    | f :: rest => x.beginFrame f rest
  else x

/-- Raise a frame: it is sent after the frame in progress and the frames raised before it (R34). -/
def Slot.raiseFrame (x : Slot) (kind service : Byte) (payload : List Byte) : Slot :=
  Slot.transmit { x with tx := { x.tx with waiting := x.tx.waiting ++ [⟨kind, service, payload⟩] } }

/-- The last byte of the frame on the line has been sent, and the next one begins. -/
def Slot.frameEnded (x : Slot) : Slot := Slot.transmit { x with tx := { x.tx with sending := none, left := 0 } }

/-- One step of the time base on the line: a DIRECTIVE or BRIDGE_ENTER whose last byte falls into it has ended (log 10). -/
def Slot.lineStep (x : Slot) : Slot :=
  match x.tx.left with
  | 0 => x
  | 1 => x.frameEnded
  | n + 2 => { x with tx := { x.tx with left := n + 1 } }

/-- A frame of this kind is on the line. -/
def Slot.sendingKind (x : Slot) (kind : Byte) : Bool :=
  match x.tx.sending with
  | some f => f.kind == kind
  | none => false

/-- A frame of this kind waits to be sent. -/
def Slot.waitingKind (x : Slot) (kind : Byte) : Bool := x.tx.waiting.any fun f => f.kind == kind

/-! ### The store arbiter (R132, R133; log 9) -/

/-- The stream of a slot's in-flight record. -/
def Slot.stream (x : Slot) : Option StreamRecord :=
  match x.inFlight with
  | some f =>
    match f.transaction with
    | .stream r => some r
    | .directive => none
  | none => none

/-- Change the stream fields of a slot's in-flight record, if it has any. -/
def Slot.modStream (x : Slot) (f : StreamRecord → StreamRecord) : Slot :=
  match x.inFlight with
  | some r =>
    match r.transaction with
    | .stream t => { x with inFlight := some { r with transaction := .stream (f t) } }
    | .directive => x
  | none => x

/-- The image and the chunk that a slot's stream waits to read at the arbiter. -/
def Slot.waitingRead (x : Slot) : Option (ImageId × Nat) :=
  match x.stream with
  | some r => if r.read = .waiting then some (r.image, r.nextChunk) else none
  | none => none

/-- The first block of an image's window (R117, R120). -/
def Image.firstBlock (x : Image) : Nat := x.start / Config.blockBytes

/-- The blocks a job of the clear/verify engine accesses: the window's, or those the high mark needs (R125, R129). -/
def State.jobBlocks (s : State) : Job → Nat
  | .clear k => (s.image k).fields.size.bytes / Config.blockBytes
  | .verify k => ceilDiv (s.image k).fields.highMark Config.blockBytes

/-- The blocks of the job at the list's head that are still to be accessed; none without a job (R124). -/
def State.engineLeft (s : State) : Nat :=
  match s.jobs with
  | [] => 0
  | j :: _ => s.jobBlocks j - s.engineBlocks

/-- The access that the requester at a position of the cycle waits for: the control port's write path, the clear/verify
engine, the stream readers of slots 0 to 23 (R132). -/
def State.storeRequest (s : State) (p : Fin 26) : Option Grant :=
  if h : 2 ≤ p.val then
    let i : SlotId := ⟨p.val - 2, by omega⟩
    match (s.slot i).waitingRead with
    | some (k, chunk) => some (.reader i k ((s.image k).firstBlock + chunk))
    | none => none
  else if p.val = 0 then
    match s.port.inProgress with
    | some (.imageWrite ..) => some .writePath
    | _ => none
  else if s.engineLeft = 0 then none else some .engine

/-- Another requester than the engine waits for the store. -/
def State.othersWait (s : State) : Bool := (List.finRange 26).any fun p => p.val != 1 && (s.storeRequest p).isSome

/-- The engine has the store to itself: its access is in progress, and no other requester waits (R124). -/
def State.engineHasStore (s : State) : Bool := s.granted == some .engine && !s.othersWait

/-- Taken before another requester asks: that the engine has had the store to itself until now, and may have done any number
of its job's blocks meanwhile, is kept (R124; log 9). -/
def State.noteAlone (s : State) : State := { s with engineAlone := s.engineAlone || s.engineHasStore }

/-- Grant the first waiting requester found at the positions given, and move the pointer past it (R132). -/
def State.grantFirst (s : State) : List (Fin 26) → State
  | [] => s
  | p :: rest =>
    match s.storeRequest p with
    | none => s.grantFirst rest
    | some g =>
      let t : State := { s with granted := some g, arbiterPointer := p + 1 }
      match g with
      | .reader i _ _ => t.modSlot i fun x => x.modStream fun r => { r with read := .granted }
      | _ => t

/-- When the store is free, grant the first waiting requester at or after the pointer, going round the cycle (R132). -/
def State.grant (s : State) : State :=
  if s.granted.isNone then
    let n := s.arbiterPointer.val
    s.grantFirst ((List.finRange 26).drop n ++ (List.finRange 26).take n)
  else s

end Sys2Proof.Machine
end

