-- ==== Sys2Proof/Machine/SlotOps.lean ====
section
/-! DEFINITION. The slot engine's shared operations: VBUS (7.2), drops and the ways a slot stops (1.2 to 1.5), power-up
(1.4), recovery (1.4.1), faults (1.5), the bridge's opening and orderly exit (chapter 8), rate exchanges (2.7), the quality
score (2.8), the start of a member (1.4.2, 6.6), streaming (6.6), the abort (2.10) and HELLO (2.6). -/

namespace Sys2Proof.Machine

/-! ### VBUS -/

/-- The power block's record when VBUS goes on (R144): the period's start, an empty history and its blanking window. -/
def PowerRecord.on (p : PowerRecord) (now : Count) (blank : Nat) : PowerRecord :=
  { p with vbus := true, periodStart := some now, history := [], blanking := startTimer now blank, blankLength := blank,
           period := p.period + 1, sampleDue := false }

/-- The power block's record when VBUS goes off (R145). -/
def PowerRecord.off (p : PowerRecord) : PowerRecord :=
  { p with vbus := false, blanking := none, accumulator := 0, trip := .clear, key := none, sampleDue := false }

/-- A pending ceiling moves into the profile (R23). -/
def Slot.applyCeiling (x : Slot) : Slot :=
  { x with
    profile := { x.profile with rateCeiling := x.pendingCeiling.getD x.profile.rateCeiling }, pendingCeiling := none }

/-- VBUS goes off, with every effect R1, R23, R34 and R145 give it: the power block's record, the timers of the powered
states, the link state at rest, the transmitter stopped, the pending ceiling written. The recovery off-timer and the
bridge record end with it (R6, R8, R17, R173). -/
def Slot.halt (x : Slot) : Slot :=
  { x.applyCeiling with
    power := x.power.off, settle := none, allowance := none, abortWait := none, offTimer := none, link := LinkState.rest,
    tx := Transmitter.idle, bridge := none }

/-! ### Drops and references -/

/-- A stream that holds a reference releases it, once (R141). -/
def State.releaseReference (s : State) (i : SlotId) : State :=
  match (s.slot i).stream with
  | some r =>
    if r.referenceHeld then
      (s.modImage r.image fun x => { x with fields := { x.fields with references := x.fields.references - 1 } }).modSlot i
        fun x => x.modStream fun r => { r with referenceHeld := false }
    else s
  | none => s

/-- The drop report of the in-flight member: none for an orphan, and none in ABORTING, where the member is already
final (R79). -/
def Slot.inFlightDrop (x : Slot) (c : DropCause) : List Report :=
  match x.inFlight with
  | some f =>
    match f.owner with
    | some t => if x.state = .aborting then [] else [⟨t, .drop c⟩]
    | none => []
  | none => []

/-- The drop reports of a slot's queued members, from the head (R6). -/
def Slot.queueDrops (x : Slot) (c : DropCause) : List Report := x.queue.map fun e => ⟨e.tag, .drop c⟩

/-- The in-flight record is removed: its reference is released, and its member, if it is not yet final, is reported as
dropped (R16, R79). -/
def State.dropInFlight (s : State) (i : SlotId) (c : DropCause) : State :=
  (s.releaseReference i).modSlot i fun x =>
    { x with reports := x.reports ++ x.inFlightDrop c, inFlight := none }

/-- Every member of the slot is dropped: the in-flight one first, then the queue from its head (R6). -/
def State.dropAll (s : State) (i : SlotId) (c : DropCause) : State :=
  (s.dropInFlight i c).modSlot i fun x => { x with reports := x.reports ++ x.queueDrops c, queue := [] }

/-! ### Opening a bridge, and the OPEN_BRIDGE that waits behind an exchange -/

/-- The receiver returns to hunting: a frame is complete, has failed, or is abandoned (R33). -/
def Slot.hunt (x : Slot) : Slot := { x with link := { x.link with receiver := .hunting } }

/-- OPEN_BRIDGE is applied (R164). -/
def State.openBridgeOn (s : State) (i : SlotId) (idleClass : Option Nat) : State :=
  s.modSlot i fun x =>
    { (Slot.raiseFrame { x.hunt with ring := [], wrapped := false } kindBridgeEnter 0 []) with
      state := .bridge
      bridge := some { rawRate := x.link.rate, idleClass := idleClass, idleTimer := idleClass.map fun n => ⟨s.now, n⟩,
                       output := [], gathering := none } }

/-- A deferred OPEN_BRIDGE is applied when the slot's exchange has ended, from the state the slot is then in (R42, R162;
log 18). -/
def State.resolveDeferred (s : State) (i : SlotId) : State :=
  match s.port.inProgress with
  | some (.openBridge tag j idleClass) =>
    if j = i && (s.slot i).link.exchange.isNone then
      let t : State := { s with port := { s.port with inProgress := none } }
      if (s.slot i).state = .ready then (t.openBridgeOn i idleClass).answer tag codeOpenBridge .accepted
      else t.answer tag codeOpenBridge .wrongState
    else s
  | _ => s

/-! ### How a slot stops -/

/-- The slot leaves its work with the drop cause given, VBUS off, and enters a state that is not powered. -/
def State.stopSlot (s : State) (i : SlotId) (c : DropCause) (dest : SlotState) : State :=
  ((s.dropAll i c).modSlot i fun x => { x.halt with state := dest }).resolveDeferred i

/-- Write the fault record of a slot that holds none, and raise FAULT (R17, R18). A slot that holds one keeps it. -/
def State.writeFault (s : State) (i : SlotId) (cause : FaultCause) (detail : Half) : State :=
  if (s.slot i).faultRecord.isSome then s
  else (s.modSlot i fun x => { x with faultRecord := some ⟨cause, s.now, detail, 0⟩ }).raise i .fault

/-- A fault taken in a powered state (R17). The powered period is kept for R152. -/
def State.enterFault (s : State) (i : SlotId) (cause : FaultCause) (detail : Half) : State :=
  ((s.stopSlot i .slotFault .fault).modSlot i fun x => { x with faultPeriod := some x.power.period }).writeFault i cause
    detail

/-- The start of an inhibit (R8). -/
def State.enterInhibited (s : State) (i : SlotId) (c : DropCause) : State := (s.stopSlot i c .inhibited).raise i .inhibit

/-! ### Power-up, boot and recovery -/

/-- Entry to POWERING (R10, R144). -/
def State.enterPowering (s : State) (i : SlotId) : State :=
  s.modSlot i fun x =>
    { x with
      state := .powering
      power := x.power.on s.now x.profile.inrushBlank
      settle := some ⟨s.now, max x.profile.inrushBlank Config.settleMinMs⟩
      offTimer := none }

/-- Entry to BOOTING from POWERING (R11, R30, R154). -/
def State.enterBooting (s : State) (i : SlotId) : State :=
  s.modSlot i fun x =>
    { x with
      state := .booting
      settle := none
      link := { x.link with awaitingHello := true }
      allowance := some ⟨.boot, ⟨s.now, x.profile.bootAllow⟩⟩
      power :=
        if x.profile.keyPress = 0 then x.power else { x.power with key := some ⟨s.now, x.profile.keyPress⟩ } }

/-- Entry to RECOVERING with VBUS off: the off-timer starts and RECOVERY is raised (R14). -/
def State.enterRecovering (s : State) (i : SlotId) (cause : RestartCause) : State :=
  ((s.releaseReference i).modSlot i fun x =>
    { x.halt with
      state := .recovering, inFlight := none, restartCause := cause, offTimer := some ⟨s.now, x.profile.recoverOff⟩ }).raise
    i .recovery

/-- The recovery decision (R13). -/
def State.recoveryDecision (s : State) (i : SlotId) (cause : FaultCause) (detail : Half) : State :=
  if (s.slot i).profile.autoRecover && (s.slot i).recoveryAttempts < 2 then
    ((s.modSlot i fun x => { x with recoveryAttempts := x.recoveryAttempts + 1 }).enterRecovering i .part).resolveDeferred i
  else s.enterFault i cause detail

/-- The detail of a NO_AGENT fault: the length of the allowance that ran out (R18). A length that 16 bits cannot hold has
no stated detail: FREE VALUE (log 14). -/
def noAgentDetail (length : Nat) : Half :=
  if length < 65536 then BitVec.ofNat 16 length else Config.longAllowanceDetail length

/-! ### Presence and inhibit -/

/-- The nest check (R4 step 2, R64): the code is read and kept when the fixture table is loaded. The answer is the
expected code of a check that fails. -/
def State.nestCheck (s : State) (i : SlotId) : Option Byte :=
  match s.fixture with
  | none => none
  | some codes =>
    if validCode (s.slot i).nestLines && (s.slot i).nestLines == codes.get i then none else some (codes.get i)

/-- The slot record keeps the code read, when one is read (R4, R64). -/
def State.keepNestCode (s : State) (i : SlotId) : State :=
  if s.fixture.isSome then s.modSlot i fun x => { x with lastNestCode := some x.nestLines } else s

/-- NEST_CODE's detail: the code read in the low byte, the expected code in the high byte (R18). -/
def nestDetail (read expected : Byte) : Half := expected ++ read

/-- ATTACH handling from step 2 of R4: the nest check, then autostart. -/
def State.admitSeated (s : State) (i : SlotId) : State :=
  let t := s.keepNestCode i
  match s.nestCheck i with
  | some expected =>
    (t.modSlot i fun x => { x with state := .fault, faultPeriod := none }).writeFault i .nestCode
      (nestDetail (s.slot i).nestLines expected)
  | none =>
    if (s.slot i).profile.autostart then (t.modSlot i fun x => { x with restartCause := .host }).enterPowering i
    else t.modSlot i fun x => { x with state := .off }

/-- An ATTACH taken in VACANT (R4). -/
def State.attachVacant (s : State) (i : SlotId) : State :=
  if (s.slot i).faultRecord.isSome then s.modSlot i fun x => { x with state := .fault, faultPeriod := none } else s.admitSeated i

/-- Both causes of inhibit are gone (R9). -/
def State.leaveInhibited (s : State) (i : SlotId) : State :=
  if (s.slot i).faultRecord.isSome then s.modSlot i fun x => { x with state := .fault, faultPeriod := none }
  else if (s.slot i).present then s.admitSeated i
  else s.modSlot i fun x => { x with state := .vacant }

/-- The debounce timer runs when the contact level differs from the present flag (R3). -/
def Slot.startDebounce (x : Slot) (now : Count) : Slot :=
  { x with debounce := if x.contact = x.present then none else some ⟨now, Config.debounceMs⟩ }

/-! ### Rate exchanges, aborts and the start of a member -/

/-- A rate exchange starts: its target is recorded and a LINK frame raised (R42). -/
def State.startExchange (s : State) (i : SlotId) (target : Nat) (purpose : ExchangePurpose) : State :=
  s.modSlot i fun x =>
    Slot.raiseFrame { x with link := { x.link with exchange := some ⟨target, purpose, none⟩ } } kindLink 0
      [BitVec.ofNat 8 target]

/-- The in-flight record as ABORTING keeps it: the window stopped, a read given up (R51, R107, R133). -/
def InFlight.aborted (f : InFlight) : InFlight :=
  { f with
    window := none
    transaction :=
      match f.transaction with
      | .stream r => .stream { r with read := .none }
      | .directive => .directive }

/-- Entry to ABORTING (R51, R115): a stream releases its reference, an exchange is abandoned, an ABORT frame is raised. -/
def State.enterAborting (s : State) (i : SlotId) : State :=
  (s.releaseReference i).modSlot i fun x =>
    Slot.raiseFrame
      { x with
        state := .aborting, abortWait := none, inFlight := x.inFlight.map InFlight.aborted
        link := { x.link with exchange := none } }
      kindAbort 0 []

/-- STREAM_OPEN's payload (R32, 10.6.6). -/
def streamOpenPayload (length : Nat) (crc : Word) : List Byte :=
  toLittleEndian 4 length ++ toLittleEndian 4 crc.toNat ++ toLittleEndian 2 Config.blockBytes ++
    toLittleEndian 2 (chunkCount length)

/-- The stream fields at a stream's start (R136). -/
def StreamRecord.begin (k : ImageId) (generation : Half) (length : Nat) (crc : Word) (held : Bool) : StreamRecord :=
  { image := k, generation := generation, length := length, crc := crc, referenceHeld := held, nextChunk := 0,
    bytesSent := 0, credit := 0, read := .none, phase := .opening }

/-- A member starts: a directive (R49), or a stream (R136), which is stopped at once when the image is not as accepted
(R137). The host service is translated now (R67) and the window computed now (R103). -/
def State.startMember (s : State) (i : SlotId) (e : QueueEntry) : State :=
  let x := s.slot i
  let window := memberWindow e.work e.timeout x.link.rate
  let service := translate x.translation e.service
  match e.work with
  | .directive payload =>
    (s.modSlot i fun x =>
      Slot.raiseFrame
        { x with state := .busy, inFlight := some ⟨some e.tag, some ⟨s.now, window⟩, .directive⟩ }
        kindDirective service payload).report i ⟨e.tag, .start s.now window⟩
  | .push k generation length crc =>
    let asAccepted := (s.image k).state == .ready && (s.image k).generation == generation
    let t :=
      (s.modSlot i fun x =>
        Slot.raiseFrame
          { x with
            state := .streaming
            inFlight :=
              some ⟨some e.tag, some ⟨s.now, window⟩, .stream (StreamRecord.begin k generation length crc asAccepted)⟩ }
          kindStreamOpen service (streamOpenPayload length crc)).report i ⟨e.tag, .start s.now window⟩
    if asAccepted then
      t.modImage k fun y => { y with fields := { y.fields with references := y.fields.references + 1 } }
    else (t.report i ⟨e.tag, .streamDamage⟩).enterAborting i

/-- Work in READY: a step-down that is due runs first, then the head entry is taken (R15, R48). -/
def State.readyWork (s : State) (i : SlotId) : State :=
  let x := s.slot i
  if x.link.exchange.isSome then s
  else if x.link.stepDownMark && 0 < x.link.rate then s.startExchange i (x.link.rate - 1) .stepDown
  else
    match x.queue with
    | [] => s
    | e :: rest => (s.modSlot i fun x => { x with queue := rest }).startMember i e

/-! ### Streaming -/

/-- No STREAM_OPEN or STREAM_DATA is being sent (R48), and no STREAM_OPEN waits behind an earlier frame: R48 speaks of the
STREAM_OPEN being sent alone, and that one which is raised and has not begun counts as well is the model's choice
(DESIGN CHOICE, log 31). -/
def Slot.chunkBoundary (x : Slot) : Bool :=
  !(x.sendingKind kindStreamOpen || x.sendingKind kindStreamData || x.waitingKind kindStreamOpen)

/-- Send the chunk that is held, when the transmitter is free: at its first byte the credit falls and the next chunk
index rises (R139). -/
def Slot.sendChunk (x : Slot) : Slot :=
  match x.stream with
  | some r =>
    match r.read with
    | .held data =>
      if r.phase = .sending && x.tx.free && x.tx.waiting.isEmpty then
        (x.raiseFrame kindStreamData 0 (toLittleEndian 4 r.nextChunk ++ data)).modStream fun r =>
          { r with credit := r.credit - 1, nextChunk := r.nextChunk + 1, read := .none }
      else x
    | _ => x
  | none => x

/-- Ask the store arbiter for the next chunk's block (R139). -/
def Slot.askChunk (x : Slot) : Slot :=
  x.modStream fun r =>
    if r.phase = .sending && 0 < r.credit && r.nextChunk < chunkCount r.length && r.read = .none then
      { r with read := .waiting }
    else r

/-- Work in STREAMING: a step-down at a chunk boundary, else the next chunk, for which the store may be asked (R48, R139). -/
def State.streamWork (s : State) (i : SlotId) : State :=
  let x := s.slot i
  if x.link.exchange.isSome then s
  else if x.link.stepDownMark && 0 < x.link.rate && x.chunkBoundary then
    s.startExchange i (x.link.rate - 1) .stepDown
  else s.noteAlone.modSlot i fun x => x.sendChunk.askChunk

/-- What the slot engine does of itself after a command: work in READY or STREAMING, and the store's next grant. -/
def State.slotWork (s : State) (i : SlotId) : State :=
  (match (s.slot i).state with
    | .ready => s.readyWork i
    | .streaming => s.streamWork i
    | _ => s).grant

/-! ### Readiness, the score and HELLO -/

/-- The entry to READY that ends the exchange after a HELLO (R12, R43). -/
def State.becomeReady (s : State) (i : SlotId) : State :=
  ((s.modSlot i fun x =>
    { x with state := .ready, recoveryAttempts := 0, link := { x.link with exchange := none } }).raiseAgentUp i).slotWork i

/-- The target of the exchange that follows a HELLO (R43). -/
def State.bootTarget (s : State) (i : SlotId) : Nat :=
  let x := s.slot i
  min (min x.profile.rateCeiling s.straps.ceiling)
    (match x.agent with
      | some a => a.maxRate.toNat
      | none => 0)

/-- The exchange that follows a HELLO: it ends at once when its target is index 0 (R43). -/
def State.bootExchange (s : State) (i : SlotId) : State :=
  if s.bootTarget i = 0 then s.becomeReady i else s.startExchange i (s.bootTarget i) .boot

/-- Whether a step-down exchange is in progress (R47). -/
def LinkState.steppingDown (l : LinkState) : Bool :=
  match l.exchange with
  | some e => e.purpose == .stepDown
  | none => false

/-- The score after a change by R45, with the step-down mark R47 sets. -/
def Slot.setScore (x : Slot) (v : Nat) : Slot :=
  { x with
    link :=
      { x.link with
        score := v
        stepDownMark := x.link.stepDownMark || (v ≤ Config.scoreLow && 0 < x.link.rate && !x.link.steppingDown) } }

/-- A loss of score (R45): a score that reaches 0 raises LINK_DEGRADED (R46), a mark that is set is acted on (R48). -/
def State.loseScore (s : State) (i : SlotId) (n : Nat) : State :=
  let x := s.slot i
  let t := s.modSlot i fun x => x.setScore (x.link.score - n)
  if x.link.score - n = 0 then t.enterFault i .linkDegraded (BitVec.ofNat 16 x.link.rate) else t.slotWork i

/-- The changes a HELLO makes to the link state and the slot record (R39 steps 1 to 7). -/
def Slot.greet (x : Slot) (identity : AgentIdentity) : Slot :=
  { x.applyCeiling with
    link :=
      { x.link with
        rate := 0, txCounter := 0, expected := 1, score := Config.scoreStart, awaitingHello := false,
        stepDownMark := false, exchange := none, receiver := .hunting }
    tx := { x.tx with waiting := [] }
    agent := some identity }

/-- An unprompted restart of the agent: cause SELF, RESTART_SELF raised, BOOTING with no allowance (R16, R40). -/
def State.restartSelf (s : State) (i : SlotId) : State :=
  ((s.modSlot i fun x => { x with state := .booting, restartCause := .self, abortWait := none }).raise i
    .restartSelf).resolveDeferred i

/-- A HELLO is taken (R39), handled by the slot's state (R11, R16, R40, R41), and the rate exchange starts (R43). -/
def State.takeHello (s : State) (i : SlotId) (identity : AgentIdentity) : State :=
  let t := s.modSlot i fun x => x.greet identity
  State.bootExchange
    (match (s.slot i).state with
      | .ready | .busy | .streaming | .aborting => (t.dropInFlight i .agentRestart).restartSelf i
      | _ => t.modSlot i fun x => { x with allowance := none }) i

/-! ### Received frames -/

/-- A frame that keeps to R32: its kind is one of the agent's five, its payload and its fields are in range. -/
def frameWellFormed (f : Frame) : Bool :=
  if f.kind = kindHello then f.seq = 0 && f.payload.length = 5
  else if f.kind = kindLinkAck then
    match f.payload with
    | [echo] => echo.toNat ≤ 4
    | _ => false
  else if f.kind = kindResult then f.payload.length ≤ 240 && (resultClassCode f.service).isSome
  else if f.kind = kindText then 1 ≤ f.payload.length && f.payload.length ≤ 240
  else if f.kind = kindStreamCredit then
    match f.payload with
    | [increment] => increment != 0
    | _ => false
  else false

/-- What a slot engine makes of a good-CRC frame. -/
inductive FrameVerdict where
  /-- discarded with no effect (R37, R38) -/
  | ignored
  /-- a HELLO taken by R39 -/
  | hello
  /-- a TEXT frame before the HELLO (R37) -/
  | earlyText
  | sequenceError
  | formatError
  | good
  deriving DecidableEq, Repr

/-- The checks of a good-CRC frame (R36, R37, R38). `detector` says that the HELLO detector received it, which listens at
rate index 0 while the link runs at a higher one (log 17). -/
def Slot.judge (x : Slot) (f : Frame) (detector : Bool) : FrameVerdict :=
  if !x.state.framed then .ignored
  else if f.kind = kindHello then
    if frameWellFormed f then .hello
    else if x.link.awaitingHello || (detector && 0 < x.link.rate) then .ignored
    else .formatError
  else if x.link.awaitingHello then if f.kind = kindText && frameWellFormed f then .earlyText else .ignored
  else if f.seq ≠ x.link.expected then .sequenceError
  else if frameWellFormed f then .good
  else .formatError

/-- A sequence error: the expected value becomes the received seq plus 1, and the score falls by 12 (R36, R45). -/
def State.sequenceError (s : State) (i : SlotId) (seq : Byte) : State :=
  (s.modSlot i fun x => { x with link := { x.link with expected := seq + 1 } }).loseScore i 12

/-- A format error: the expected value rises, but for a HELLO, and the score falls by 8 (R36, R45). -/
def State.formatError (s : State) (i : SlotId) (kind : Byte) : State :=
  (if kind = kindHello then s
    else s.modSlot i fun x => { x with link := { x.link with expected := x.link.expected + 1 } }).loseScore i 8

/-- A good frame: the expected value and the score rise by 1 (R36 step 3, R45). -/
def State.countGood (s : State) (i : SlotId) : State :=
  s.modSlot i fun x =>
    Slot.setScore { x with link := { x.link with expected := x.link.expected + 1 } } (min (x.link.score + 1) Config.scoreMax)

/-- A CRC error, taken while the link is framed: the receiver returns to hunting, and the score falls by 8 unless the HELLO is
awaited (R33, R37, R45). -/
def State.crcError (s : State) (i : SlotId) : State :=
  let x := s.slot i
  if x.state.framed then
    let t := s.modSlot i Slot.hunt
    if x.link.awaitingHello then t else t.loseScore i 8
  else s

/-- The receiver of a slot after it has taken a whole frame (R33). The HELLO detector is a receiver of its own at a rate
index above 0, and leaves the main receiver as it stands (R38). -/
def Slot.frameTaken (x : Slot) (detector : Bool) : Slot :=
  if x.state.framed && !(detector && 0 < x.link.rate) then x.hunt else x

/-- The agent identity in a HELLO's five bytes (R32). -/
def helloIdentity (payload : List Byte) : AgentIdentity :=
  { model := BitVec.ofNat 16 (fromLittleEndian (payload.take 2))
    version := BitVec.ofNat 16 (fromLittleEndian ((payload.drop 2).take 2))
    maxRate := BitVec.ofNat 8 (fromLittleEndian ((payload.drop 4).take 1)) }

/-- A good-CRC frame is taken: `early` handles a TEXT before the HELLO, `good` a good frame (R54), after which the slot
engine goes on with its own work. -/
def State.receive (s : State) (i : SlotId) (f : Frame) (detector : Bool) (early good : State → State) : State :=
  let t := s.modSlot i fun x => x.frameTaken detector
  match (s.slot i).judge f detector with
  | .ignored => t
  | .hello => t.takeHello i (helloIdentity f.payload)
  | .earlyText => early t
  | .sequenceError => t.sequenceError i f.seq
  | .formatError => t.formatError i f.kind
  | .good => (good (t.countGood i)).slotWork i

/-! ### The console ring and the bridge -/

/-- One byte is appended to the console ring (R159). -/
def Slot.pushByte (x : Slot) (b : Byte) : Slot :=
  if x.ring.length < Config.ringBytes then { x with ring := x.ring ++ [b] }
  else { x with ring := x.ring.drop 1 ++ [b], wrapped := true }

/-- A TEXT frame's bytes are appended in payload order, and the first byte into an empty ring raises TEXT (R160). -/
def State.appendText (s : State) (i : SlotId) (payload : List Byte) : State :=
  let t := s.modSlot i fun x => payload.foldl Slot.pushByte x
  if (s.slot i).ring.isEmpty && !payload.isEmpty then t.raise i .text else t

/-- The idle timer restarts, when the idle class has a length (R167). -/
def Slot.restartIdle (x : Slot) (now : Count) : Slot :=
  { x with bridge := x.bridge.map fun b => { b with idleTimer := b.idleClass.map fun n => ⟨now, n⟩ } }

def Slot.setGathering (x : Slot) (t : Option Timer) : Slot :=
  { x with bridge := x.bridge.map fun b => { b with gathering := t } }

/-- Queue a BRIDGE_OUT with the ring's oldest bytes, up to 256; LOSS is the wrapped flag, which is cleared (R168). -/
def State.queueBridgeOut (s : State) (i : SlotId) : State :=
  let x := s.slot i
  (s.modSlot i fun x =>
    Slot.setGathering
      { x with ring := x.ring.drop Config.bridgeOutBytes, wrapped := false, messageWaiting := true } none).sendBridgeOut
    ⟨i, x.wrapped, x.ring.take Config.bridgeOutBytes⟩

/-- The BRIDGE_OUT builder, after a byte has come or a message has gone: a full message at once, else the gathering timer
starts if `start` says so (R168). -/
def State.buildBridgeOut (s : State) (i : SlotId) (start : Bool) : State :=
  let x := s.slot i
  if x.state = .bridge && !x.messageWaiting && !x.ring.isEmpty then
    if Config.bridgeOutBytes ≤ x.ring.length then s.queueBridgeOut i
    else if start then s.modSlot i fun x => x.setGathering (some ⟨s.now, Config.gatheringMs⟩)
    else s
  else s

/-- The orderly exit of a bridge: BOOTING with the link at rest, the 2 ms break and the resync allowance (R171). -/
def State.leaveBridge (s : State) (i : SlotId) : State :=
  s.modSlot i fun x =>
    { x with
      state := .booting
      bridge := none
      link := LinkState.rest
      tx := { sending := none, waiting := [], breaking := some ⟨s.now, Config.breakMs⟩, left := 0 }
      allowance := some ⟨.resync, ⟨s.now, Config.resyncMs⟩⟩ }

end Sys2Proof.Machine
end

