-- ==== Sys2Proof/Machine/FanOutOps.lean ====
section
/-! DEFINITION. The fan-out engine's shared operations (chapter 4): the Operation Table, completion, the ends of members,
the acceptance of an operation; and a slot engine's taking of an append and of a withdraw. -/

namespace Sys2Proof.Machine

/-! ### Members and entries -/

/-- A final status (R69). -/
def MemberStatus.isFinal : MemberStatus → Bool
  | .queued | .active => false
  | _ => true

def MemberStatus.isPassed : MemberStatus → Bool
  | .passed _ => true
  | _ => false

def MemberStatus.isFailed : MemberStatus → Bool
  | .failed _ => true
  | _ => false

/-- The entry that holds a tag (R68). -/
def State.findOp (s : State) (t : Tag) : Option Operation := s.ops.find? fun o => o.tag == t

def State.modOp (s : State) (t : Tag) (f : Operation → Operation) : State :=
  { s with ops := s.ops.map fun o => if o.tag = t then f o else o }

/-- The record of a slot's member. -/
def Operation.member (o : Operation) (i : SlotId) : Option Member := o.members.find? fun m => m.slot == i

/-- The slots of the members that are not final, in ascending order. -/
def Operation.openSlots (o : Operation) : List SlotId := (o.members.filter fun m => !m.status.isFinal).map (·.slot)

/-- A member becomes final, and the counts follow (R68). -/
def Operation.finish (o : Operation) (i : SlotId) (st : MemberStatus) : Operation :=
  { o with
    members := o.members.map fun m => if m.slot = i then { m with status := st } else m
    final := o.final + 1
    passed := o.passed + (if st.isPassed then 1 else 0)
    failed := o.failed + (if st.isFailed then 1 else 0) }

/-- Every member that is not final becomes CANCELLED (R91, R93). -/
def Operation.cancelRest (o : Operation) (c : CancelCause) : Operation :=
  { o with
    members := o.members.map fun m => if m.status.isFinal then m else { m with status := .cancelled c }
    final := o.final + o.openSlots.length }

/-- The completion policy (R87, R88, R89): the verdict, where the operation completes. -/
def Operation.decision (o : Operation) : Option Verdict :=
  let n := o.members.length
  if n = 0 then some .empty
  else
    match o.policy with
    | .all => if o.final = n then some (if o.passed = n then .pass else .fail) else none
    | .any => if 0 < o.passed then some .pass else if o.final = n then some .fail else none
    | .quorum k => if k ≤ o.passed then some .pass else if o.passed + (n - o.final) < k then some .fail else none

/-- The gather report of an entry that completes (R95). -/
def Operation.report (o : Operation) (v : Verdict) (now : Count) : GatherReport :=
  { tag := o.tag, work := o.work, verdict := v, policy := o.policy, service := o.service, timeout := o.timeout,
    reply := o.reply, accepted := o.accepted, elapsed := now - o.accepted, members := o.members }

/-- Free gather memory (R73). -/
def State.freeGather (s : State) : Nat := Config.gatherBytes - (s.ops.map (·.reservation)).sum

/-! ### Completion -/

/-- The operation completes: its verdict and completion time are recorded, the entry becomes REPORTING, and its report
goes to the uplink (R92). -/
def State.complete (s : State) (t : Tag) (v : Verdict) : State :=
  match s.findOp t with
  | some o => (s.modOp t fun o => { o with phase := .reporting v s.now }).sendGather (o.report v s.now)
  | none => s

/-- The members that are not final become CANCELLED, and each is withdrawn from its slot (R91, R93). -/
def State.cancelMembers (s : State) (t : Tag) (c : CancelCause) : State :=
  match s.findOp t with
  | some o => o.openSlots.foldl (fun s i => s.ask i (.withdraw t)) (s.modOp t fun o => o.cancelRest c)
  | none => s

/-- Evaluate the policy of a LIVE entry, with the early completion of R91. -/
def State.evaluate (s : State) (t : Tag) : State :=
  match s.findOp t with
  | some o =>
    if o.phase = .live then
      match o.decision with
      | some v => (s.cancelMembers t .earlyDone).complete t v
      | none => s
    else s
  | none => s

/-- A member of a LIVE entry whose status `admits` allows becomes final, and the policy is evaluated; anything else is
discarded (R81 to R84). A report finds its member by tag and slot alone: one left from a freed operation, whose tag a new
operation on the slot has taken, is applied to the new member. The spec is silent there; that is the model's choice (DESIGN
CHOICE, log 32). -/
def State.endMember (s : State) (t : Tag) (i : SlotId) (admits : MemberStatus → Bool)
    (st : Operation → Member → MemberStatus) : State :=
  match s.findOp t with
  | some o =>
    if o.phase = .live then
      match o.member i with
      | some m => if admits m.status then (s.modOp t fun o => o.finish i (st o m)).evaluate t else s
      | none => s
    else s
  | none => s

/-! ### A slot engine takes an append or a withdraw -/

/-- What a slot in this state, with this many queue entries, makes of a new member (R72). -/
def admission (state : SlotState) (depth : Nat) : MemberStatus :=
  if state.queueing then if depth < Config.queueDepth then .queued else .skipped .queueFull
  else .skipped (.state state)

/-- An append is taken: the entry joins the queue's tail, or the slot has left the queueing states and the member becomes
SKIPPED (R75; log 26). R109 runs an entry's limit from acceptance while the entry is in the queue, and does not say what becomes
of one whose count has passed while the append waited: that it joins all the same, with its limit due at once, and that a
READY slot with nothing before it starts it, is the model's choice (DESIGN CHOICE, log 35). -/
def State.takeAppend (s : State) (i : SlotId) (e : QueueEntry) : State :=
  let x := s.slot i
  let outcome := admission x.state x.queue.length
  if outcome = .queued then (s.modSlot i fun x => { x with queue := x.queue ++ [e] }).slotWork i
  else s.endMember e.tag i (fun st => st = .queued) fun _ _ => outcome

/-- A withdraw is taken, applied to wherever the member stands (R78). -/
def State.takeWithdraw (s : State) (i : SlotId) (t : Tag) : State :=
  let x := s.slot i
  if x.queue.any fun e => e.tag = t then s.modSlot i fun x => { x with queue := x.queue.filter fun e => !(e.tag = t) }
  else
    match x.inFlight with
    | some f =>
      if f.owner = some t then
        match x.state with
        | .busy => s.modSlot i fun x => { x with inFlight := x.inFlight.map fun f => { f with owner := none } }
        | .streaming => s.enterAborting i
        | _ => s
      else s
    | none => s

/-- The slot engine takes the oldest request that waits for it (R75). -/
def State.takeRequest (s : State) (i : SlotId) : State :=
  match (s.slot i).requests with
  | [] => s
  | r :: rest =>
    let t := s.modSlot i fun x => { x with requests := rest }
    match r with
    | .append e => t.takeAppend i e
    | .withdraw tag => t.takeWithdraw i tag

/-- Every request that waits for the slot engine is taken, in order: a read of resolution comes after them (R75). -/
def State.drain (s : State) (i : SlotId) : State := (s.slot i).requests.foldl (fun s _ => s.takeRequest i) s

/-! ### Acceptance -/

/-- The code fields of a DIRECT or PUSH (R70 step 1, R196). -/
def operationCodes (f : OperationFields) : Bool :=
  isFlagByte f.selector && isFlagByte f.policyPresent && isFlagByte f.replyPresent &&
    (f.policyPresent == 0 || (policyCode f.policy 0).isSome)

/-- What the source of an operation gives: the source, the set, and the policy and limits that stand by default (R60,
R71). -/
structure SourceValues where
  source : Source
  set : SlotSet
  policy : Policy
  timeout : Nat
  reply : Nat
  deriving DecidableEq, Repr

/-- Step 4 of R70. -/
def State.readSource (s : State) (f : OperationFields) : Except ResultCode SourceValues :=
  if f.selector = 0 then
    match s.group f.group.toNat with
    | some g => .ok ⟨.group f.group.toNat, g.members, g.policy, g.timeout, g.reply⟩
    | none => .error .badGroup
  else if s.straps.namesUnfitted f.set then .error .badSlot
  else .ok ⟨.explicit f.set, f.set, .all, Config.defaultTimeoutMs, Config.defaultReply⟩

/-- The checks of R70 in their order; `work` is steps 5 and 6. -/
def State.checkOperation (s : State) (tag : Tag) (f : OperationFields) (work : Except ResultCode Work) :
    Except ResultCode (SourceValues × Work) :=
  if !operationCodes f then .error .malformed
  else if (s.findOp tag).isSome then .error .duplicateTag
  else if Config.operationEntries ≤ s.ops.length then .error .tableFull
  else
    match s.readSource f with
    | .error c => .error c
    | .ok v =>
      match work with
      | .error c => .error c
      | .ok w => .ok (v, w)

/-- A QUORUM count clamped to 1 to 24 and then to the number of slots, never below 1 (R58, R71). -/
def clampQuorum (k slots : Nat) : Nat := max 1 (min (clampTo 1 24 k) slots)

/-- The policy of an operation: the one it carries, else its source's (R71). -/
def operationPolicy (f : OperationFields) (v : SourceValues) : Policy :=
  if f.policyPresent = 0 then v.policy
  else (policyCode f.policy (clampQuorum f.k.toNat (slotCount v.set))).getD v.policy

/-- T (R71). -/
def operationTimeout (f : OperationFields) (v : SourceValues) : Nat :=
  if f.timeout = 0 then v.timeout else clampTo 1 60000 f.timeout.toNat

/-- R (R71). -/
def operationReply (f : OperationFields) (v : SourceValues) : Nat :=
  if f.replyPresent = 0 then v.reply else clampTo 0 240 f.replyMax.toNat

/-- The fields a DIRECT or PUSH reports as clamped: bit 0 k, bit 1 timeout, bit 2 reply_max (R71, R187). -/
def operationMask (f : OperationFields) (v : SourceValues) : Half :=
  maskOf
    [f.policyPresent != 0 && f.policy == 2 && clampQuorum f.k.toNat (slotCount v.set) != f.k.toNat,
     f.timeout != 0 && clampTo 1 60000 f.timeout.toNat != f.timeout.toNat,
     f.replyPresent != 0 && clampTo 0 240 f.replyMax.toNat != f.replyMax.toNat]

/-- The member list of an operation, in ascending slot order (R72). -/
def State.resolve (s : State) (set : SlotSet) : List Member :=
  (slotsOf set).map fun i => ⟨i, admission (s.slot i).state (s.slot i).queue.length, none⟩

/-- The entry of an accepted operation (R74). The SKIPPED members are final from the start (R72). -/
def State.newOperation (s : State) (tag : Tag) (f : OperationFields) (v : SourceValues) (w : Work) : Operation :=
  let members := s.resolve v.set
  { tag := tag, work := w, source := v.source, policy := operationPolicy f v, service := f.service,
    timeout := operationTimeout f v, reply := operationReply f v, accepted := s.now, members := members, passed := 0,
    failed := 0, final := (members.filter fun m => m.status.isFinal).length,
    reservation := (members.filter fun m => !m.status.isFinal).length * operationReply f v, phase := .live }

/-- The queue entry the fan-out engine gives with an append (R76). -/
def Operation.entry (o : Operation) : QueueEntry := ⟨o.tag, o.service, o.accepted, o.timeout, o.work⟩

/-- Steps 3 to 5 of R74, for an entry just created: it completes without an append, or its appends are sent. -/
def State.openOperation (s : State) (o : Operation) : State :=
  match o.decision with
  | some v => (s.modOp o.tag fun o => o.cancelRest .earlyDone).complete o.tag v
  | none => o.openSlots.foldl (fun s i => s.ask i (.append o.entry)) s

/-- An operation that passed R70 is resolved, reserved and accepted, or refused NO_ROOM (R72, R73, R74). The reads of
resolution come after every request sent before them (R75; log 12). -/
def State.acceptOperation (s : State) (tag : Tag) (kind : Byte) (f : OperationFields) (v : SourceValues) (w : Work) :
    State :=
  let t := (slotsOf v.set).foldl State.drain s
  let o := t.newOperation tag f v w
  if t.freeGather < o.reservation then t.answer tag kind .noRoom
  else
    State.openOperation
      (State.answer { t with ops := t.ops ++ [o] } tag kind (clampResult (operationMask f v)) (operationMask f v)
        (.accepted o.members.length o.openSlots.length)) o

/-- A DIRECT or PUSH (R70 to R74). -/
def State.operate (s : State) (tag : Tag) (kind : Byte) (f : OperationFields) (work : Except ResultCode Work) : State :=
  match s.checkOperation tag f work with
  | .error c => s.answer tag kind c
  | .ok (v, w) => s.acceptOperation tag kind f v w

end Sys2Proof.Machine
end

