-- ==== Sys2Proof/Machine/ResetOps.lean ====
section
/-! DEFINITION. Power-on reset (R29, R191, R194), the effects of RESTART (R193), host port detach (R99, R183, R189,
R190), and the step of the time base (R100). -/

namespace Sys2Proof.Machine

/-- Change every slot, in ascending order. -/
def State.modSlots (s : State) (f : SlotId → Slot → Slot) : State :=
  (List.finRange 24).foldl (fun s i => s.modSlot i (f i)) s

/-- The state a slot is placed in (R2, R29). -/
def placedState (fitted isOpen : Bool) : SlotState :=
  if !fitted then .unfitted else if isOpen then .inhibited else .vacant

/-- A slot placed in INHIBITED raises INHIBIT (R182). -/
def State.raisePlaced (s : State) (i : SlotId) : State :=
  if (s.slot i).state = .inhibited then s.raise i .inhibit else s

/-- Presence is evaluated: a slot whose present flag is set is handled as an ATTACH at once (R29, R182). After power-on reset
no present flag is set. -/
def State.evaluatePresence (s : State) (i : SlotId) : State :=
  if (s.slot i).present then
    let t := s.raise i .attach
    if (s.slot i).state = .vacant then t.attachVacant i else t
  else s

/-- Every slot is placed, and then presence is evaluated (R29, R182). That the slots are taken in ascending order, in the
placement and again in the evaluation, is the model's choice (DESIGN CHOICE, log 30). -/
def State.placeSlots (s : State) : State :=
  (List.finRange 24).foldl State.evaluatePresence ((List.finRange 24).foldl State.raisePlaced s)

/-! ### Power-on reset -/

/-- A slot at power-on reset: its pins stay, the debounce timer starts where the contact reads seated (R3, R29). -/
def Slot.atPowerOn (x : Slot) (fitted isOpen : Bool) (ceiling : Nat) : Slot :=
  let y := Slot.initial (placedState fitted isOpen) ceiling x.contact x.nestLines
  if fitted then y.startDebounce 0 else y

/-- An interlock at power-on reset: its level is taken as read, with no wait (R7); the interlock of an absent bank is not
read (R2; log 22). -/
def Interlock.atPowerOn (x : Interlock) (fitted : Bool) : Interlock :=
  { input := x.input, taken := fitted && x.input, settling := none }

/-- Every block but the slots at its power-on values, with the straps latched and the interlock levels taken as read (R7,
R191, R194). -/
def State.blank (s : State) (banksHigh ceilingHigh : Bool) : State :=
  { State.reset with
    pending := s.pending, straps := ⟨banksHigh, ceilingHigh⟩, interlockA := s.interlockA.atPowerOn true,
    interlockB := s.interlockB.atPowerOn banksHigh, slots := s.slots }

/-- POWER_ON_RESET: the straps are latched, every block takes its power-on values, the slots are placed and presence is
evaluated (R29, R191, R194). The pins and the queue of commands stay as they are. -/
def State.powerUp (s : State) (banksHigh ceilingHigh : Bool) : State :=
  let blank := s.blank banksHigh ceilingHigh
  (blank.modSlots fun i x => x.atPowerOn (blank.straps.fitted i) (blank.drawerOpen i) blank.straps.ceiling).placeSlots

/-! ### RESTART -/

/-- A slot at RESTART: power-on values, with the present flag kept; a debounce timer that is stopped starts again while the
level still differs (R3, R29). -/
def Slot.atRestart (x : Slot) (fitted isOpen : Bool) (ceiling : Nat) (now : Count) : Slot :=
  let y := Slot.initial (placedState fitted isOpen) ceiling x.contact x.nestLines
  if fitted then Slot.startDebounce { y with present := x.present } now else y

/-- An interlock at RESTART: the level taken stays, and its settling timer starts anew while the input differs (R7). -/
def Interlock.atRestart (x : Interlock) (now : Count) (fitted : Bool) : Interlock :=
  { x with settling := if fitted && x.input != x.taken then some ⟨now, Config.interlockMs⟩ else none }

/-- An image at RESTART (R119). -/
def Image.atRestart (x : Image) : Image :=
  match x.state with
  | .ready | .damaged => { x with fields := { x.fields with references := 0 } }
  | _ => { x with state := .free, fields := ImageFields.absent }

/-- A stream's read in progress is done to its end after a RESTART (R133; log 21). -/
def keptGrant : Option Grant → Option Grant
  | some (.reader i k block) => some (.reader i k block)
  | _ => none

/-- The blocks but for the slots return to their power-on values, the images are set by R119, and the uplink's other
classes are emptied (R193 steps 2 to 4). -/
def State.sweep (s : State) : State :=
  { s with
    ops := [], groups := Vector.replicate 31 none, fixture := none, jobs := [], engineBlocks := 0, engineAlone := false,
    arbiterPointer := 0, granted := keptGrant s.granted, images := s.images.map Image.atRestart, noticeMask := 0xFF,
    interlockA := s.interlockA.atRestart s.now true, interlockB := s.interlockB.atRestart s.now s.straps.banksTwo,
    uplink := { s.uplink with gathers := [], bridgeOuts := [], notices := [] } }

/-- The slots return to their power-on values and are placed by the interlock levels as taken (R193 steps 1, 2 and 5). -/
def State.restartSlots (s : State) : State :=
  (s.sweep.modSlots fun i x => x.atRestart (s.straps.fitted i) (s.drawerOpen i) s.straps.ceiling s.now).placeSlots

/-- The intake hold is cleared (R193 step 6). -/
def State.endHold (s : State) : State := { s with port := { s.port with intakeHold := false } }

/-- The effects of a RESTART, once its receipt has been sent (R193). -/
def State.restartEffects (s : State) : State := s.restartSlots.endHold

/-! ### Host port detach -/

/-- A request in progress at a host port detach: an IMAGE_WRITE goes on and its receipt will be discarded, a deferred
OPEN_BRIDGE is abandoned (R190). -/
def InProgress.detached : InProgress → Option InProgress
  | .imageWrite tag k offset data _ => some (.imageWrite tag k offset data true)
  | .openBridge .. => none

/-- The members of every LIVE entry are withdrawn, in acceptance order, and the table is emptied (R99). -/
def State.detachOperations (s : State) : State :=
  { s.ops.foldl (fun t o => if o.phase = .live then o.openSlots.foldl (fun t i => t.ask i (.withdraw o.tag)) t else t) s with
    ops := [] }

/-- HOST_PORT_DETACH on a CONFIGURED port (R189): the uplink is emptied, the fan-out engine, the bridged slots and the
event unit apply the detach (R99, R171, R183), a RESTART not yet answered is abandoned (R190). -/
def State.detachPort (s : State) : State :=
  let t : State :=
    { s with
      uplink := Uplink.empty
      port := { configured := false, inProgress := s.port.inProgress.bind InProgress.detached, intakeHold := false } }
  let u := (t.modSlots fun _ x => { x with noticeWaiting := false, messageWaiting := false }).detachOperations
  (List.finRange 24).foldl (fun s i => if (s.slot i).state = .bridge then s.leaveBridge i else s) u

/-! ### The time base -/

/-- The stall timer runs while the receiver is within a frame (R33). -/
def ReceiverPhase.stall : ReceiverPhase → Option Timer
  | .hunting => none
  | .withinFrame _ t => some t

/-- The running timers of a slot (R101), its queue limits among them (R109). -/
def Slot.timers (x : Slot) : List Timer :=
  (([x.debounce, x.settle, x.allowance.map (·.timer), x.link.exchange.bind (·.wait), x.inFlight.bind (·.window),
      x.abortWait, x.offTimer, x.power.blanking, x.power.key, x.bridge.bind (·.idleTimer), x.bridge.bind (·.gathering),
      x.tx.breaking, x.link.receiver.stall].filterMap id) ++
    x.queue.map fun e => ⟨e.accepted, e.timeout⟩)

/-- Something is still to be taken at the present count: an expiry, or a current sample (R101, R147; log 3). -/
def State.owes (s : State) : Bool :=
  dueSome s.now s.interlockA.settling || dueSome s.now s.interlockB.settling ||
    s.slots.toList.any fun x => x.power.sampleDue || x.timers.any (due s.now)

/-- One step of the time base (R100): each powered slot owes a sample (R147), and each transmitter is a millisecond further
(log 10). The count does not pass an expiry that has not been taken (R101; log 3). -/
def State.tick (s : State) : State :=
  if s.owes then s
  else
    State.modSlots { s with now := s.now + 1 } fun _ x =>
      Slot.lineStep (if x.power.vbus then { x with power := { x.power with sampleDue := true } } else x)

end Sys2Proof.Machine
end

