-- ==== Sys2Proof/Machine/LinkEvents.lean ====
section
/-! DEFINITION. The frames a slot engine receives, the errors it counts, the rate exchange's wait, and the frames whose last
byte it has sent (chapter 2; R136, R138 to R140). -/

namespace Sys2Proof.Machine

/-! ### HELLO and TEXT -/

/-- HELLO (R39 to R41, R16, R37). -/
def execHello (i : SlotId) (detector : Bool) (seq service : Byte) (payload : List Byte) (s : State) :
    Host.Outcome State Fault Refusal :=
  .next (s.receive i ⟨kindHello, seq, service, payload⟩ detector id id)

/-- TEXT (R37, R54, R160). -/
def execText (i : SlotId) (seq service : Byte) (payload : List Byte) (s : State) : Host.Outcome State Fault Refusal :=
  .next (s.receive i ⟨kindText, seq, service, payload⟩ false (fun s => s.appendText i payload) fun s =>
    s.appendText i payload)

/-! ### The rate exchange -/

/-- The window of a stream grows when a step-down succeeds during it (R113). -/
def Slot.extendWindow (x : Slot) (old new : Nat) : Slot :=
  match x.stream with
  | some r =>
    if x.state = .streaming then
      { x with
        inFlight := x.inFlight.map fun f =>
          { f with window := f.window.map fun w => { w with length := extendedWindow w.length r old new } } }
    else x
  | none => x

/-- The link after a step-down that succeeded (R44). -/
def Slot.stepDown (x : Slot) (target : Nat) : Slot :=
  Slot.extendWindow
    { x with
      link := { x.link with rate := target, score := Config.scoreStepDown, stepDownMark := false, exchange := none } }
    x.link.rate target

/-- A rate exchange succeeds (R42 step 4, R43, R44). -/
def State.exchangeSucceeds (s : State) (i : SlotId) (e : Exchange) : State :=
  match e.purpose with
  | .boot => (s.modSlot i fun x => { x with link := { x.link with rate := e.target } }).becomeReady i
  | .stepDown => (s.modSlot i fun x => x.stepDown e.target).resolveDeferred i

/-- A good LINK_ACK: it ends the exchange whose wait runs and whose target it echoes, and is otherwise discarded (R42,
R54). -/
def State.takeLinkAck (s : State) (i : SlotId) (payload : List Byte) : State :=
  match (s.slot i).link.exchange with
  | some e => if e.wait.isSome && payload.map (·.toNat) = [e.target] then s.exchangeSucceeds i e else s
  | none => s

/-- LINK_ACK (R42, R54). -/
def execLinkAck (i : SlotId) (seq service : Byte) (payload : List Byte) (s : State) :
    Host.Outcome State Fault Refusal :=
  .next (s.receive i ⟨kindLinkAck, seq, service, payload⟩ false id fun s => s.takeLinkAck i payload)

/-- The exchange of a slot whose wait is due, while the link is framed (R42). -/
def Slot.dueExchange (x : Slot) (now : Count) : Option Exchange :=
  match x.link.exchange with
  | some e => if x.state.framed && dueSome now e.wait then some e else none
  | none => none

/-- RATE_EXCHANGE_WAIT_EXPIRY: the exchange fails (R42 step 6). After a HELLO the slot becomes READY at index 0 (R43); a
step-down raises LINK_LOST (R44). -/
def execRateExchangeWaitExpiry (i : SlotId) (s : State) : Host.Outcome State Fault Refusal :=
  .next (match (s.slot i).dueExchange s.now with
    | some e =>
      match e.purpose with
      | .boot => s.becomeReady i
      | .stepDown => s.enterFault i .linkLost (BitVec.ofNat 16 e.target)
    | none => s)

/-! ### RESULT and STREAM_CREDIT -/

/-- The in-flight transaction ends and the slot enters READY; nothing is reported for an orphan (R50, R140). -/
def State.endTransaction (s : State) (i : SlotId) (cls : ResultClass) (payload : List Byte) : State :=
  (s.releaseReference i).modSlot i fun x =>
    { x with
      state := .ready
      inFlight := none
      reports :=
        x.reports ++
          match x.inFlight.bind (·.owner) with
          | some t => [⟨t, .result s.now cls payload⟩]
          | none => [] }

/-- The abort ends with a RESULT, which is not reported (R52). -/
def State.endAbort (s : State) (i : SlotId) : State :=
  (s.releaseReference i).modSlot i fun x => { x with state := .ready, inFlight := none, abortWait := none }

/-- A good RESULT, by the slot's state (R54). -/
def State.takeResult (s : State) (i : SlotId) (service : Byte) (payload : List Byte) : State :=
  match (s.slot i).state, resultClassCode service with
  | .busy, some cls => s.endTransaction i cls payload
  | .streaming, some cls => s.endTransaction i cls payload
  | .aborting, _ => s.endAbort i
  | _, _ => s

/-- RESULT (R50, R52, R54, R140). -/
def execResult (i : SlotId) (seq service : Byte) (payload : List Byte) (s : State) : Host.Outcome State Fault Refusal :=
  .next (s.receive i ⟨kindResult, seq, service, payload⟩ false id fun s => s.takeResult i service payload)

/-- A good STREAM_CREDIT: in STREAMING the increment joins the credit, saturating at 8 (R138). -/
def State.takeCredit (s : State) (i : SlotId) (payload : List Byte) : State :=
  if (s.slot i).state = .streaming then
    s.modSlot i fun x => x.modStream fun r =>
      { r with credit := min (r.credit + fromLittleEndian payload) Config.creditLimit }
  else s

/-- STREAM_CREDIT (R138, R54). -/
def execStreamCredit (i : SlotId) (seq service : Byte) (payload : List Byte) (s : State) :
    Host.Outcome State Fault Refusal :=
  .next (s.receive i ⟨kindStreamCredit, seq, service, payload⟩ false id fun s => s.takeCredit i payload)

/-! ### Errors -/

/-- FORMAT_ERROR (R32, R36, R45): a good-CRC frame that does not keep to R32. A frame that keeps to it is no such event. -/
def execFormatError (i : SlotId) (frame : Frame) (s : State) : Host.Outcome State Fault Refusal :=
  .next (if frameWellFormed frame then s else s.receive i frame false id id)

/-- CRC_ERROR (R33, R37, R45). -/
def execCrcError (i : SlotId) (s : State) : Host.Outcome State Fault Refusal := .next (s.crcError i)

/-- RECEIVER_STALL_EXPIRY (R33, R101): the stall timer of a frame partly received is due, which is a CRC error. -/
def execReceiverStallExpiry (i : SlotId) (s : State) : Host.Outcome State Fault Refusal :=
  .next (if dueSome s.now (s.slot i).link.receiver.stall then s.crcError i else s)

/-- SEQUENCE_ERROR_FRAME (R36, R37, R45): a good-CRC frame, no HELLO, whose seq is not the expected value. Before the HELLO
it is discarded. -/
def execSequenceErrorFrame (i : SlotId) (seq : Byte) (s : State) : Host.Outcome State Fault Refusal :=
  let x := s.slot i
  .next (if x.state.framed && (x.link.awaitingHello || seq != x.link.expected) then
      let t := s.modSlot i Slot.hunt
      if x.link.awaitingHello then t else t.sequenceError i seq
    else s)

/-! ### The receiver, byte by byte (R33) -/

/-- A good-CRC frame that the main receiver has put together is taken as the command of its kind takes it. -/
def State.takeFrame (s : State) (i : SlotId) (f : Frame) : State :=
  if f.kind = kindText then
    s.receive i f false (fun s => s.appendText i f.payload) fun s => s.appendText i f.payload
  else if f.kind = kindLinkAck then s.receive i f false id fun s => s.takeLinkAck i f.payload
  else if f.kind = kindResult then s.receive i f false id fun s => s.takeResult i f.service f.payload
  else if f.kind = kindStreamCredit then s.receive i f false id fun s => s.takeCredit i f.payload
  else s.receive i f false id id

/-- The payload length that a frame's bytes announce, once the length field is complete (R31). -/
def announcedLength (bytes : List Byte) : Nat := fromLittleEndian ((bytes.drop 3).take 2)

/-- The frame in the bytes that follow a start byte (R31). -/
def frameOf (bytes : List Byte) : Frame :=
  { kind := bytes.getD 0 0, seq := bytes.getD 1 0, service := bytes.getD 2 0
    payload := (bytes.drop 5).take (announcedLength bytes) }

/-- The CRC-16 over the fields and the payload is the one received (R31, R33). -/
def crcMatches (bytes : List Byte) : Bool :=
  let n := 5 + announcedLength bytes
  (crc16 (bytes.take n)).toNat == fromLittleEndian ((bytes.drop n).take 2)

/-- The receiver is within a frame, with the bytes given, and its stall timer starts anew (R33). -/
def Slot.collect (x : Slot) (bytes : List Byte) (now : Count) : Slot :=
  { x with link := { x.link with receiver := .withinFrame bytes ⟨now, Config.stallMs⟩ } }

/-- One byte arrives while the link is framed (R33): hunting, a 0xC3 starts a frame and any other byte is discarded; within a
frame the byte is collected, a length over 516 and a CRC that differs are CRC errors, and a frame whose CRC matches is
taken. -/
def State.takeByte (s : State) (i : SlotId) (byte : Byte) : State :=
  match (s.slot i).link.receiver with
  | .hunting => if byte = 0xC3 then s.modSlot i fun x => x.collect [] s.now else s
  | .withinFrame bytes _ =>
    let taken := bytes ++ [byte]
    if taken.length < 5 then s.modSlot i fun x => x.collect taken s.now
    else if 516 < announcedLength taken then s.crcError i
    else if taken.length < announcedLength taken + 7 then s.modSlot i fun x => x.collect taken s.now
    else if crcMatches taken then s.takeFrame i (frameOf taken)
    else s.crcError i

/-! ### Frames sent -/

/-- The last byte of a frame of the kind given has been sent: `effect` is what that starts, and the next frame begins. A
frame of the same kind that still waits is the one the current exchange, abort or stream raised, and the frame that left
belonged to an earlier one (log 28). -/
def State.frameSent (s : State) (i : SlotId) (kind : Byte) (effect : Slot → Slot) : State :=
  if (s.slot i).sendingKind kind then
    (s.modSlot i fun x => Slot.frameEnded (if x.waitingKind kind then x else effect x)).slotWork i
  else s

/-- The exchange's 50 ms wait starts (R42 step 2). -/
def Slot.startExchangeWait (x : Slot) (now : Count) : Slot :=
  { x with
    link :=
      { x.link with exchange := x.link.exchange.map fun e => { e with wait := some ⟨now, Config.exchangeWaitMs⟩ } } }

/-- LINK_FRAME_SENT (R42 step 2). -/
def execLinkFrameSent (i : SlotId) (s : State) : Host.Outcome State Fault Refusal :=
  .next (s.frameSent i kindLink fun x => x.startExchangeWait s.now)

/-- The abort wait starts (R51 step 3, R112). -/
def Slot.startAbortWait (x : Slot) (now : Count) : Slot :=
  if x.state = .aborting then { x with abortWait := some ⟨now, Config.abortWaitMs⟩ } else x

/-- ABORT_FRAME_SENT (R51, R112). -/
def execAbortFrameSent (i : SlotId) (s : State) : Host.Outcome State Fault Refusal :=
  .next (s.frameSent i kindAbort fun x => x.startAbortWait s.now)

/-- The opening phase ends (R136 step 3). -/
def Slot.openStream (x : Slot) : Slot :=
  if x.state = .streaming then
    x.modStream fun r => if r.phase = .opening then { r with phase := .sending } else r
  else x

/-- STREAM_OPEN_SENT (R136). -/
def execStreamOpenSent (i : SlotId) (s : State) : Host.Outcome State Fault Refusal :=
  .next (s.frameSent i kindStreamOpen Slot.openStream)

/-- The image bytes of the STREAM_DATA frame on the line. -/
def Slot.chunkOnLine (x : Slot) : Nat :=
  match x.tx.sending with
  | some f => f.payload.length - 4
  | none => 0

/-- A chunk has been sent: bytes sent rises by its length, and after the last chunk the phase is closing (R139). -/
def Slot.chunkSent (x : Slot) : Slot :=
  if x.state = .streaming then
    x.modStream fun r =>
      if r.phase = .sending then
        { r with
          bytesSent := r.bytesSent + x.chunkOnLine
          phase := if r.nextChunk = chunkCount r.length then .closing else .sending }
      else r
  else x

/-- STREAM_DATA_SENT (R139). -/
def execStreamDataSent (i : SlotId) (s : State) : Host.Outcome State Fault Refusal :=
  .next (s.frameSent i kindStreamData Slot.chunkSent)

end Sys2Proof.Machine
end

