-- ==== Sys2Proof/Machine/ConsoleCommands.lean ====
section
/-! DEFINITION. The console requests and the events of a bridge (chapter 8). -/

namespace Sys2Proof.Machine

/-! ### Requests -/

/-- A request that names one slot (R2, R161, R162, R166, R170): BAD_SLOT, else the slot's own rule. -/
def State.onSlot (s : State) (tag : Tag) (kind : Byte) (number : Byte) (run : SlotId → State) : State :=
  match s.straps.slotNumber number with
  | none => s.answer tag kind .badSlot
  | some i => run i

/-- READ_CONSOLE (R161): the ring's bytes and its wrapped flag are returned, and both are emptied. -/
def execReadConsole (tag : Tag) (body : Body Byte) (s : State) : Host.Outcome State Fault Refusal :=
  .next (s.requestWith tag codeReadConsole body fun number s =>
    s.onSlot tag codeReadConsole number fun i =>
      if (s.slot i).state = .bridge then s.answer tag codeReadConsole .wrongState
      else
        (s.modSlot i fun x => { x with ring := [], wrapped := false }).answer tag codeReadConsole .accepted 0
          (.console (s.slot i).wrapped (s.slot i).ring))

/-- OPEN_BRIDGE (R162, R164): deferred, with its receipt, behind a rate exchange in progress (R42). -/
def execOpenBridge (tag : Tag) (body : Body OpenBridgeFields) (s : State) : Host.Outcome State Fault Refusal :=
  .next (s.requestWith tag codeOpenBridge body fun f s =>
    match idleClassCode f.idleClass with
    | none => s.answer tag codeOpenBridge .malformed
    | some idleClass =>
      s.onSlot tag codeOpenBridge f.slot fun i =>
        if (s.slot i).state ≠ .ready then s.answer tag codeOpenBridge .wrongState
        else if (s.slot i).link.exchange.isSome then
          { s with port := { s.port with inProgress := some (.openBridge tag i idleClass) } }
        else (s.openBridgeOn i idleClass).answer tag codeOpenBridge .accepted)

/-- The bytes in a slot's output buffer; none without a bridge (R163). -/
def Slot.output (x : Slot) : List Byte :=
  match x.bridge with
  | some b => b.output
  | none => []

def Slot.setOutput (x : Slot) (bytes : List Byte) : Slot :=
  { x with bridge := x.bridge.map fun b => { b with output := bytes } }

/-- BRIDGE_DATA (R166): the bytes join the output buffer, and the idle timer restarts (R167). -/
def execBridgeData (tag : Tag) (body : Body BridgeDataFields) (s : State) : Host.Outcome State Fault Refusal :=
  .next (s.requestWith tag codeBridgeData body fun f s =>
    if f.data.isEmpty then s.answer tag codeBridgeData .malformed
    else if 1024 < f.data.length then s.answer tag codeBridgeData .tooLong
    else
      s.onSlot tag codeBridgeData f.slot fun i =>
        let held := (s.slot i).output
        if (s.slot i).state ≠ .bridge then s.answer tag codeBridgeData .wrongState
        else if Config.ringBytes - held.length < f.data.length then s.answer tag codeBridgeData .noRoom
        else
          (s.modSlot i fun x => (x.setOutput (held ++ f.data)).restartIdle s.now).answer tag codeBridgeData .accepted 0
            (.freeSpace (Config.ringBytes - (held.length + f.data.length))))

/-- CLOSE_BRIDGE (R170): answered with the bytes still in the output buffer, and the bridge exits by R171. -/
def execCloseBridge (tag : Tag) (body : Body Byte) (s : State) : Host.Outcome State Fault Refusal :=
  .next (s.requestWith tag codeCloseBridge body fun number s =>
    s.onSlot tag codeCloseBridge number fun i =>
      if (s.slot i).state ≠ .bridge then s.answer tag codeCloseBridge .wrongState
      else
        (s.leaveBridge i).answer tag codeCloseBridge .accepted 0 (.discarded (s.slot i).output.length))

/-! ### Events of a bridge -/

/-- The idle timer of a slot's bridge. -/
def Slot.idleTimer (x : Slot) : Option Timer := x.bridge.bind (·.idleTimer)

/-- The gathering timer of a slot's bridge. -/
def Slot.gathering (x : Slot) : Option Timer := x.bridge.bind (·.gathering)

/-- BRIDGE_IDLE_TIMER_EXPIRY (R167): the bridge exits by R171. -/
def execBridgeIdleTimerExpiry (i : SlotId) (s : State) : Host.Outcome State Fault Refusal :=
  .next (if (s.slot i).state = .bridge && dueSome s.now (s.slot i).idleTimer then s.leaveBridge i else s)

/-- BREAK_END (R171): the line is released, and a frame that waited for it is sent. -/
def execBreakEnd (i : SlotId) (s : State) : Host.Outcome State Fault Refusal :=
  .next (if dueSome s.now (s.slot i).tx.breaking then
      s.modSlot i fun x => Slot.transmit { x with tx := { x.tx with breaking := none } }
    else s)

/-- RAW_BYTE_RECEIVED (R165): in BRIDGE the byte joins the ring, the idle timer restarts, and a BRIDGE_OUT may be gathered or
queued (R168). While the link is framed it is the next byte of the incoming stream, which the receiver takes by R33 (log
16); elsewhere it is discarded (R38). -/
def execRawByteReceived (i : SlotId) (byte : Byte) (s : State) : Host.Outcome State Fault Refusal :=
  .next (if (s.slot i).state = .bridge then
      (s.modSlot i fun x => (x.pushByte byte).restartIdle s.now).buildBridgeOut i (s.slot i).ring.isEmpty
    else if (s.slot i).state.framed then s.takeByte i byte
    else s)

/-- BRIDGE_OUT_GATHERING_EXPIRY (R168): a message with every byte the ring holds is queued. -/
def execBridgeOutGatheringExpiry (i : SlotId) (s : State) : Host.Outcome State Fault Refusal :=
  .next (if dueSome s.now (s.slot i).gathering then
      if (s.slot i).state = .bridge && !(s.slot i).messageWaiting && !(s.slot i).ring.isEmpty then s.queueBridgeOut i
      else s.modSlot i fun x => x.setGathering none
    else s)

/-- BRIDGE_BYTE_SENT (R166, R167): the oldest byte leaves the output buffer, and the idle timer restarts. Raw bytes are
sent after the BRIDGE_ENTER frame (R164). -/
def execBridgeByteSent (i : SlotId) (s : State) : Host.Outcome State Fault Refusal :=
  let x := s.slot i
  .next (if x.state = .bridge && !x.output.isEmpty && x.tx.free && x.tx.waiting.isEmpty then
      s.modSlot i fun x => (x.setOutput (x.output.drop 1)).restartIdle s.now
    else s)

end Sys2Proof.Machine
end

