-- ==== Sys2Proof/Machine/DeadlineEvents.lean ====
section
/-! DEFINITION. What ends a member from inside the device: the damage stop (R142), the member window (R108), the queue limit
(R109) and the abort wait (R53, R112). -/

namespace Sys2Proof.Machine

/-- The report that names the in-flight member; none for an orphan (R79). -/
def Slot.ownerReport (x : Slot) (body : ReportBody) : List Report :=
  match x.inFlight.bind (·.owner) with
  | some t => [⟨t, body⟩]
  | none => []

/-- The in-flight member is reported as ended, and the transaction is aborted (R51). -/
def State.abortWith (s : State) (i : SlotId) (body : ReportBody) : State :=
  (s.modSlot i fun x => { x with reports := x.reports ++ x.ownerReport body }).enterAborting i

/-- The slot streams the image of a damage stop and holds its reference (R142). -/
def Slot.streamsImage (x : Slot) (d : DamageStop) : Bool :=
  x.state == .streaming &&
    match x.stream with
    | some r => r.referenceHeld && r.image == d.image && r.generation == d.generation
    | none => false

/-- DAMAGE_STOP (R142): the slot engine takes the oldest damage stop by its own state. -/
def execDamageStop (i : SlotId) (s : State) : Host.Outcome State Fault Refusal :=
  .next (match (s.slot i).damageStops with
    | [] => s
    | d :: rest =>
      let t := s.modSlot i fun x => { x with damageStops := rest }
      if (s.slot i).streamsImage d then t.abortWith i .streamDamage else t)

/-- The member window of the in-flight record. -/
def Slot.window (x : Slot) : Option Timer := x.inFlight.bind (·.window)

/-- MEMBER_WINDOW_EXPIRY (R51, R107, R108). -/
def execMemberWindowExpiry (i : SlotId) (s : State) : Host.Outcome State Fault Refusal :=
  .next (if ((s.slot i).state = .busy || (s.slot i).state = .streaming) && dueSome s.now (s.slot i).window then
      s.abortWith i .windowExpiry
    else s)

/-- The queue limit of an entry: from the operation's acceptance, with length T (R109). -/
def QueueEntry.limit (e : QueueEntry) : Timer := ⟨e.accepted, e.timeout⟩

/-- QUEUE_LIMIT_EXPIRY (R109): the first entry, from the head, whose limit has expired leaves the queue and is reported. -/
def execQueueLimitExpiry (i : SlotId) (s : State) : Host.Outcome State Fault Refusal :=
  .next (match (s.slot i).queue.find? fun e => due s.now e.limit with
    | some e =>
      (s.modSlot i fun x =>
        { x with
          queue := x.queue.eraseP fun e => due s.now e.limit
          reports := x.reports ++ [⟨e.tag, .queueLimit⟩] }).slotWork i
    | none => s)

/-- HUNG's detail: the aborted member's tag, 0 for an orphan (R18). -/
def Slot.abortedTag (x : Slot) : Half :=
  match x.inFlight.bind (·.owner) with
  | some t => t
  | none => 0

/-- ABORT_WAIT_EXPIRY (R53, R112): the in-flight record is removed, and the recovery decision made with HUNG. -/
def execAbortWaitExpiry (i : SlotId) (s : State) : Host.Outcome State Fault Refusal :=
  .next (if (s.slot i).state = .aborting && dueSome s.now (s.slot i).abortWait then
      ((s.releaseReference i).modSlot i fun x => { x with inFlight := none, abortWait := none }).recoveryDecision i .hung
        (s.slot i).abortedTag
    else s)

end Sys2Proof.Machine
end

