-- ==== Sys2Proof/Machine/ImageCommands.lean ====
section
/-! DEFINITION. The image requests, the work of the clear/verify engine and the accesses to the store (chapter 6). -/

namespace Sys2Proof.Machine

/-! ### Damage -/

/-- An uncorrectable word makes its image DAMAGED (R118). From READY, a damage stop goes to every slot engine (R142). -/
def State.damageImage (s : State) (k : ImageId) : State :=
  match (s.image k).state with
  | .ready =>
    (s.modImage k fun x => { x with state := .damaged }).modSlots fun _ x =>
      { x with damageStops := x.damageStops ++ [⟨k, (s.image k).generation⟩] }
  | .loading => s.modImage k fun x => { x with state := .damaged }
  | .verifying =>
    s.modImage k fun x => { x with state := .damaged, fields := { x.fields with computedCrc := none } }
  | _ => s

/-! ### Requests -/

/-- The window of an image that is not FREE shares a unit with the one given (R120, R122). -/
def sharesUnit (base units : Nat) (x : Image) : Bool :=
  x.state != .free && base < x.fields.base + x.units && x.fields.base < base + units

/-- The first check of R122 that an IMAGE_DEFINE fails, after its image number. -/
def State.defineRefusal (s : State) (k : ImageId) (base units : Nat) : Option ResultCode :=
  if (s.image k).state ≠ .free then some .wrongState
  else if base % units ≠ 0 then some .badBase
  else if Config.storeUnits < base + units then some .badBase
  else if s.images.toList.any (sharesUnit base units) then some .overlap
  else none

/-- The record of an image just defined (R123). -/
def Image.define (x : Image) (base : Nat) (size : SizeClass) : Image :=
  { state := .clearing, generation := x.generation + 1,
    fields := { ImageFields.absent with base := base, size := size } }

/-- IMAGE_DEFINE (R122, R123). -/
def execImageDefine (tag : Tag) (body : Body ImageDefineFields) (s : State) : Host.Outcome State Fault Refusal :=
  .next (s.requestWith tag codeImageDefine body fun f s =>
    match sizeClassCode f.sizeClass with
    | none => s.answer tag codeImageDefine .malformed
    | some size =>
      match imageNumber f.image with
      | none => s.answer tag codeImageDefine .badImage
      | some k =>
        match s.defineRefusal k f.base.toNat size.units with
        | some c => s.answer tag codeImageDefine c
        | none =>
          let t := s.modImage k fun x => x.define f.base.toNat size
          (State.answer { t with jobs := t.jobs ++ [.clear k] } tag codeImageDefine .accepted).grant)

/-- The first check of R126 that an IMAGE_WRITE fails, in its order; the image number is checked third. -/
def State.writeRefusal (s : State) (f : ImageWriteFields) : Option ResultCode :=
  if f.data.isEmpty then some .malformed
  else if 1024 < f.data.length then some .tooLong
  else
    match imageNumber f.image with
    | none => some .badImage
    | some k =>
      if (s.image k).state ≠ .loading then some .wrongState
      else if (s.image k).fields.size.bytes < f.offset.toNat + f.data.length then some .tooLong
      else none

/-- IMAGE_WRITE (R126): the high mark rises, and the write's accesses begin; the receipt waits for the last (R121). -/
def execImageWrite (tag : Tag) (body : Body ImageWriteFields) (s : State) : Host.Outcome State Fault Refusal :=
  .next (s.requestWith tag codeImageWrite body fun f s =>
    match s.writeRefusal f, imageNumber f.image with
    | some c, _ => s.answer tag codeImageWrite c
    | none, none => s
    | none, some k =>
      let t := s.noteAlone.modImage k fun x =>
        { x with fields := { x.fields with highMark := max x.fields.highMark (f.offset.toNat + f.data.length) } }
      State.grant
        { t with port := { t.port with inProgress := some (.imageWrite tag k f.offset.toNat f.data false) } })

/-- IMAGE_COMMIT (R128). -/
def execImageCommit (tag : Tag) (body : Body ImageCommitFields) (s : State) : Host.Outcome State Fault Refusal :=
  .next (s.requestWith tag codeImageCommit body fun f s =>
    match imageNumber f.image with
    | none => s.answer tag codeImageCommit .badImage
    | some k =>
      if (s.image k).state = .loading && 0 < (s.image k).fields.highMark then
        let t := s.modImage k fun x =>
          { x with
            state := .verifying
            fields := { x.fields with expectedCrc := some f.crc, computedCrc := none } }
        (State.answer { t with jobs := t.jobs ++ [.verify k] } tag codeImageCommit .accepted).grant
      else s.answer tag codeImageCommit .wrongState)

/-- The states an image may be released from (R130). -/
def ImageState.releasable : ImageState → Bool
  | .loading | .ready | .damaged => true
  | _ => false

/-- IMAGE_RELEASE (R130). -/
def execImageRelease (tag : Tag) (body : Body Byte) (s : State) : Host.Outcome State Fault Refusal :=
  .next (s.requestWith tag codeImageRelease body fun image s =>
    match imageNumber image with
    | none => s.answer tag codeImageRelease .badImage
    | some k =>
      if !(s.image k).state.releasable then s.answer tag codeImageRelease .wrongState
      else if (s.image k).fields.references ≠ 0 then s.answer tag codeImageRelease .inUse
      else
        (s.modImage k fun x => { x with state := .free, fields := ImageFields.absent }).answer tag codeImageRelease
          .accepted)

/-- The store units that no window holds (R131). -/
def State.freeUnits (s : State) : Nat := Config.storeUnits - (s.images.toList.map Image.units).sum

/-- IMAGE_QUERY (R131). -/
def execImageQuery (tag : Tag) (body : Body Unit) (s : State) : Host.Outcome State Fault Refusal :=
  .next (s.requestWith tag codeImageQuery body fun _ s =>
    s.answer tag codeImageQuery .accepted 0 (.images s.freeUnits s.images.toList))

/-! ### The accesses of a write -/

/-- The bytes an access starting at store byte `a` takes of a write's data: up to the block's end (R127). -/
def accessLength (a : Nat) (data : List Byte) : Nat := min data.length (Config.blockBytes - a % Config.blockBytes)

/-- Whether the first word of an access is covered only in part (R127). -/
def firstPartial (a n : Nat) : Bool := a % 8 != 0 || n < 8

/-- Whether the last word of an access is another word than the first, and covered only in part (R127). -/
def lastPartial (a n : Nat) : Bool := (a + n) % 8 != 0 && (a + n - 1) / 8 != a / 8

/-- A word covered in part whose read is uncorrectable is written back with 0x00 where the write does not cover it: the
word is blanked to 0x00 before the write's bytes go in (R127). -/
def zeroWord (m : List Host.Cell) (isRead : Bool) (check : WordCheck) (word : Nat) : List Host.Cell :=
  if isRead && check == .uncorrectable then Memory.writeBytes m (8 * word) (List.replicate 8 0) else m

/-- The store after one access of a write (R127). -/
def writeBlock (m : List Host.Cell) (a : Nat) (bytes : List Byte) (first last : WordCheck) : List Host.Cell :=
  let n := bytes.length
  Memory.writeBytes
    (zeroWord (zeroWord m (firstPartial a n) first (a / 8)) (lastPartial a n) last ((a + n - 1) / 8)) a bytes

/-- How many of an access's words read had one bit in error (R117). -/
def correctedWords (a n : Nat) (first last : WordCheck) : Nat :=
  (if firstPartial a n && first == .corrected then 1 else 0) + (if lastPartial a n && last == .corrected then 1 else 0)

/-- Whether an access read an uncorrectable word (R127). -/
def damagingWords (a n : Nat) (first last : WordCheck) : Bool :=
  (firstPartial a n && first == .uncorrectable) || (lastPartial a n && last == .uncorrectable)

/-- The bits that the words of a store access have lost since the access before join the ones in error; the words are numbered
from the first of the access (R117; log 8). -/
def State.disturb (s : State) (first n : Nat) (lostOne lostTwo : List Nat) : State :=
  { s with lostBits := Memory.loseBits s.lostBits first n (lostOne ++ lostTwo ++ lostTwo) }

/-- One access of an IMAGE_WRITE is done: its bytes go into the store, with fresh codes for every word it touches (R117), and
the last one lets the receipt be sent (R126, R127, R190). -/
def State.writeAccess (s : State) (tag : Tag) (k : ImageId) (offset : Nat) (data : List Byte) (discard : Bool) : State :=
  let a := (s.image k).start + offset
  let n := accessLength a data
  let first := Memory.check s.lostBits (a / 8)
  let last := Memory.check s.lostBits ((a + n - 1) / 8)
  let t : State :=
    { s with
      store := writeBlock s.store a (data.take n) first last
      lostBits := Memory.freshen s.lostBits (a / 8) ((a + n - 1) / 8 + 1 - a / 8)
      granted := none }
  let u := t.countCorrected k (correctedWords a n first last)
  let v := if damagingWords a n first last then u.damageImage k else u
  let rest := data.drop n
  if rest.isEmpty then
    let w : State := { v with port := { v.port with inProgress := none } }
    (if discard then w
      else w.answer tag codeImageWrite .accepted 0 (.highMark (v.image k).fields.highMark)).grant
  else State.grant { v with port := { v.port with inProgress := some (.imageWrite tag k (offset + n) rest discard) } }

/-! ### The clear/verify engine -/

/-- The errors that a read of words of an image's window finds: its corrected words are counted, and an uncorrectable one
damages the image (R117, R118). -/
def State.chargeWords (s : State) (k : ImageId) (first n : Nat) : State :=
  let t := s.countCorrected k (Memory.corrected s.lostBits first n)
  if (Memory.uncorrectable s.lostBits first n).isSome then t.damageImage k else t

/-- The job at the head leaves the list (R124). -/
def State.endJob (s : State) : State := { s with jobs := s.jobs.drop 1, engineBlocks := 0, engineAlone := false }

/-- `n` blocks of a window from store block `first` hold 0xFF, with fresh codes (R125). -/
def State.clearBlocks (s : State) (first n : Nat) : State :=
  { s with
    store := Memory.clear s.store (Config.blockBytes * first) (Config.blockBytes * n)
    lostBits := Memory.freshen s.lostBits (Config.blockWords * first) (Config.blockWords * n) }

/-- The engine's next block of a job: a block of the window is cleared (R125), or read and checked, and a verification ends
at a block with an uncorrectable word (R129). The words read have lost the bits that State.lostBits holds: no operand names
bits they lost just before (DESIGN CHOICE, log 36). -/
def State.engineBlock (s : State) : Job → State
  | .clear k =>
    { s.clearBlocks ((s.image k).firstBlock + s.engineBlocks) 1 with engineBlocks := s.engineBlocks + 1 }
  | .verify k =>
    let first := Config.blockWords * ((s.image k).firstBlock + s.engineBlocks)
    let t := s.chargeWords k first Config.blockWords
    if (Memory.uncorrectable s.lostBits first Config.blockWords).isSome then t.endJob
    else { t with engineBlocks := s.engineBlocks + 1 }

/-- A block access of the clear/verify engine that does not end its job is no command: the access that holds the grant ends
when another requester's access is reported done, which the arbiter has then granted (R132; log 9). The report's operands
name bits lost by the words of its own block, and none by those of the engine's (DESIGN CHOICE, log 36). -/
def State.endEngineAccess (s : State) : State :=
  if s.granted = some .engine then
    match s.jobs with
    | j :: _ => State.grant { (if s.engineLeft = 0 then s else s.engineBlock j) with granted := none }
    | [] => State.grant { s with granted := none }
  else s.grant

/-- The job at the head may end with `left` accesses not known to be done: with none; with the one that holds the grant; or
with any number, when the engine has the store to itself, or has had it at some time during the job, and so received every
grant it asked for (R124, R132; log 9). -/
def State.jobMayEnd (s : State) (left : Nat) : Bool :=
  left == 0 || (s.granted = some .engine && left == 1) || s.engineHasStore || s.engineAlone

/-- The engine's grant ends with its job; a grant of another requester stays. -/
def State.releaseEngine (s : State) : State := if s.granted = some .engine then { s with granted := none } else s

/-- CLEARING_JOB_END (R125): every byte of the window is 0xFF, with fresh codes, and the image enters LOADING. -/
def execClearingJobEnd (s : State) : Host.Outcome State Fault Refusal :=
  let t := s.grant
  .next (match t.jobs with
    | .clear k :: _ =>
      if t.jobMayEnd t.engineLeft then
        State.grant
          ((t.clearBlocks (t.image k).firstBlock (t.jobBlocks (.clear k))).endJob.releaseEngine.modImage k fun x =>
            { x with state := .loading, fields := { x.fields with highMark := 0 } })
      else s
    | _ => s)

/-- The CRC-32 of an image's bytes 0 to length less 1 (R129). -/
def State.imageCrc (s : State) (k : ImageId) : Word :=
  crc32 (Memory.readBytes s.store (s.image k).start (s.image k).fields.highMark)

/-- A verification that has read every block: a match makes the image READY, a mismatch returns it to LOADING (R129). -/
def Image.verified (x : Image) (computed : Word) : Image :=
  if x.fields.expectedCrc = some computed then
    { x with state := .ready, fields := { x.fields with computedCrc := some computed, outcome := .matched } }
  else { x with state := .loading, fields := { x.fields with computedCrc := some computed, outcome := .mismatch } }

/-- The blocks that a verification still reads: up to the first with an uncorrectable word, or all that are left (R129). -/
def State.verifyLeft (s : State) (k : ImageId) : Nat :=
  let next := (s.image k).firstBlock + s.engineBlocks
  match Memory.uncorrectable s.lostBits (Config.blockWords * next) (Config.blockWords * s.engineLeft) with
  | some word => word / Config.blockWords + 1 - next
  | none => s.engineLeft

/-- VERIFICATION_JOB_END (R129): the blocks still to be read are read, up to one with an uncorrectable word, which makes the
image DAMAGED; with none the computed CRC decides. `lostOne` and `lostTwo` number words of the
window. -/
def execVerificationJobEnd (lostOne lostTwo : List Nat) (s : State) : Host.Outcome State Fault Refusal :=
  let t := s.grant
  match t.jobs with
  | .verify k :: _ =>
    let u := t.disturb (Config.blockWords * (t.image k).firstBlock) (Config.blockWords * t.jobBlocks (.verify k))
      lostOne lostTwo
    if u.jobMayEnd (u.verifyLeft k) then
      if Config.storeBytes < (u.image k).start + (u.image k).fields.highMark then .fault .storeAddressOutside
      else
        let first := Config.blockWords * ((u.image k).firstBlock + u.engineBlocks)
        let n := Config.blockWords * u.verifyLeft k
        let v := (u.chargeWords k first n).endJob.releaseEngine
        .next (State.grant
          (if (Memory.uncorrectable u.lostBits first n).isSome then v
            else v.modImage k fun x => x.verified (u.imageCrc k)))
    else .next s
  | _ => .next s

/-! ### The accesses reported done -/

/-- IMAGE_WRITE_ACCESS_DONE (R127, R132): taken when the write path holds the store's grant. `lostOne` and
`lostTwo` number words of the block accessed. -/
def execImageWriteAccessDone (lostOne lostTwo : List Nat) (s : State) : Host.Outcome State Fault Refusal :=
  let t := if s.granted = some .writePath then s else s.endEngineAccess
  match t.granted, t.port.inProgress with
  | some .writePath, some (.imageWrite tag k offset data discard) =>
    let a := (t.image k).start + offset
    if Config.storeBytes < a + data.length then .fault .storeAddressOutside
    else
      .next
        ((t.disturb (Config.blockWords * (a / Config.blockBytes)) Config.blockWords lostOne lostTwo).writeAccess tag k offset
          data discard)
  | _, _ => .next s

/-- What a stream's read leaves in its record: the chunk's data, from the block read, or none after an uncorrectable word
(R117, R139). A read whose stream has stopped is discarded (R133). -/
def State.deliver (s : State) (i : SlotId) (block : Nat) (failed : Bool) : State :=
  s.modSlot i fun x => x.modStream fun r =>
    if r.read = .granted then
      { r with
        read :=
          if failed then .failed
          else
            .held
              (Memory.readBytes s.store (Config.blockBytes * block)
                (min Config.blockBytes (r.length - Config.blockBytes * r.nextChunk))) }
    else r

/-- The errors a stream's read finds are counted, and damage the image, also when its stream has stopped (R133). Where the
image has meanwhile been released, and perhaps defined again, the spec does not say to whom they are charged: the model
charges them to no image (DESIGN CHOICE, log 33). -/
def State.chargeRead (s : State) (k : ImageId) (block : Nat) : State :=
  if (s.image k).state = .ready || (s.image k).state = .damaged then
    s.chargeWords k (Config.blockWords * block) Config.blockWords
  else s

/-- STREAM_CHUNK_READ (R133, R139): taken when the slot's reader holds the store's grant. `lostOne` and `lostTwo`
number words of the block read. -/
def execStreamChunkRead (i : SlotId) (lostOne lostTwo : List Nat) (s : State) : Host.Outcome State Fault Refusal :=
  let t := if s.granted = some .engine then s.endEngineAccess else s
  match t.granted with
  | some (.reader j k block) =>
    if j = i then
      if Config.storeBytes < Config.blockBytes * (block + 1) then .fault .storeAddressOutside
      else
        let first := Config.blockWords * block
        let u := State.disturb { t with granted := none } first Config.blockWords lostOne lostTwo
        .next
          (((u.chargeRead k block).deliver i block
            (Memory.uncorrectable u.lostBits first Config.blockWords).isSome).slotWork i)
    else .next s
  | _ => .next s

end Sys2Proof.Machine
end

