-- ==== Sys2Proof/Machine/InputEvents.lean ====
section
/-! DEFINITION. Presence and interlock inputs (1.2, 1.3), the timers of the life cycle (1.4), the key, the blanking window
and current supervision (chapter 7). -/

namespace Sys2Proof.Machine

/-! ### Presence -/

/-- PRESENCE_CONTACT_CHANGE (R3): the debounce timer runs while the contact differs from the present flag, and stops when
it returns. An UNFITTED slot has no debounced presence (R2). -/
def execPresenceContactChange (i : SlotId) (seated : Bool) (nestLines : Byte) (s : State) :
    Host.Outcome State Fault Refusal :=
  .next (s.modSlot i fun x =>
    { x with
      contact := seated
      nestLines := nestLines
      debounce :=
        if !s.straps.fitted i || seated = x.present then none
        else if x.debounce.isSome then x.debounce
        else some ⟨s.now, Config.debounceMs⟩ })

/-- A settled ATTACH, by the slot's state (R4, R5). -/
def State.takeAttach (s : State) (i : SlotId) : State :=
  let t := s.raise i .attach
  if (s.slot i).state = .vacant then t.attachVacant i else t

/-- A settled DETACH, by the slot's state (R6). -/
def State.takeDetach (s : State) (i : SlotId) : State :=
  let t := s.raise i .detach
  match (s.slot i).state with
  | .vacant | .inhibited => t
  | _ => t.stopSlot i .detached .vacant

/-- PRESENCE_DEBOUNCE_EXPIRY (R3): the present flag takes the contact's level, an ATTACH or a DETACH. An UNFITTED slot has
no debounced presence (R2). -/
def execPresenceDebounceExpiry (i : SlotId) (s : State) : Host.Outcome State Fault Refusal :=
  .next (if s.straps.fitted i && dueSome s.now (s.slot i).debounce then
      let t := s.modSlot i fun x => { x with present := x.contact, debounce := none }
      if (s.slot i).contact = (s.slot i).present then t
      else if (s.slot i).contact then t.takeAttach i
      else t.takeDetach i
    else s)

/-! ### The interlocks -/

/-- The interlock of a bank is read (R2, R7). -/
def State.bankRead (s : State) (k : Bank) : Bool :=
  match k with
  | .a => true
  | .b => s.straps.banksTwo

/-- INTERLOCK_INPUT_CHANGE (R7): the settling timer runs while the input differs from the level taken. -/
def execInterlockInputChange (bank : Bank) (isOpen : Bool) (s : State) : Host.Outcome State Fault Refusal :=
  let k := s.interlock bank
  .next (s.setInterlock bank
    { k with
      input := isOpen
      settling :=
        if !s.bankRead bank || isOpen = k.taken then none
        else if k.settling.isSome then k.settling
        else some ⟨s.now, Config.interlockMs⟩ })

/-- A drawer that opens inhibits a slot that is not yet INHIBITED (R8). -/
def State.openDrawer (s : State) (i : SlotId) : State :=
  match (s.slot i).state with
  | .unfitted | .inhibited => s
  | _ => s.enterInhibited i .interlock

/-- A drawer that closes ends the inhibit of a slot whose disable flag is clear (R9). -/
def State.closeDrawer (s : State) (i : SlotId) : State :=
  if (s.slot i).state = .inhibited && !(s.slot i).disabled then s.leaveInhibited i else s

/-- INTERLOCK_SETTLE_EXPIRY (R7): the bank's slots take the level. That they take it in ascending order, and so raise their
events and queue their notices (R178), is the model's choice (DESIGN CHOICE, log 30). -/
def execInterlockSettleExpiry (bank : Bank) (s : State) : Host.Outcome State Fault Refusal :=
  let k := s.interlock bank
  .next (if dueSome s.now k.settling then
      (bankSlots bank).foldl (fun t i => if k.input then t.openDrawer i else t.closeDrawer i)
        (s.setInterlock bank { k with taken := k.input, settling := none })
    else s)

/-! ### The timers of the life cycle -/

/-- SETTLE_TIMER_EXPIRY (R10): POWERING to BOOTING. -/
def execSettleTimerExpiry (i : SlotId) (s : State) : Host.Outcome State Fault Refusal :=
  .next (if (s.slot i).state = .powering && dueSome s.now (s.slot i).settle then s.enterBooting i else s)

/-- An allowance of the kind given runs and is due; its length is the detail of NO_AGENT. -/
def Slot.dueAllowance (x : Slot) (now : Count) (kind : AllowanceKind) : Option Nat :=
  match x.allowance with
  | some a => if a.kind = kind && due now a.timer then some a.timer.length else none
  | none => none

/-- An allowance ends without a HELLO: the recovery decision with NO_AGENT (R11, R13, R172). -/
def State.allowanceEnded (s : State) (i : SlotId) (kind : AllowanceKind) : State :=
  match (s.slot i).dueAllowance s.now kind with
  | some length =>
    if (s.slot i).state = .booting then
      (s.modSlot i fun x => { x with allowance := none }).recoveryDecision i .noAgent (noAgentDetail length)
    else s
  | none => s

/-- BOOT_ALLOWANCE_EXPIRY (R11, R13). -/
def execBootAllowanceExpiry (i : SlotId) (s : State) : Host.Outcome State Fault Refusal :=
  .next (s.allowanceEnded i .boot)

/-- RESYNC_ALLOWANCE_EXPIRY (R172). -/
def execResyncAllowanceExpiry (i : SlotId) (s : State) : Host.Outcome State Fault Refusal :=
  .next (s.allowanceEnded i .resync)

/-- RECOVERY_OFF_TIMER_EXPIRY (R14): RECOVERING to POWERING, the restart cause kept. -/
def execRecoveryOffTimerExpiry (i : SlotId) (s : State) : Host.Outcome State Fault Refusal :=
  .next (if (s.slot i).state = .recovering && dueSome s.now (s.slot i).offTimer then s.enterPowering i else s)

/-! ### The key and the blanking window -/

/-- KEY_PRESS_EXPIRY (R154): the key is released. -/
def execKeyPressExpiry (i : SlotId) (s : State) : Host.Outcome State Fault Refusal :=
  .next (if dueSome s.now (s.slot i).power.key then
      s.modSlot i fun x => { x with power := { x.power with key := none } }
    else s)

/-- BLANKING_WINDOW_EXPIRY (R146). -/
def execBlankingWindowExpiry (i : SlotId) (s : State) : Host.Outcome State Fault Refusal :=
  .next (if dueSome s.now (s.slot i).power.blanking then
      s.modSlot i fun x => { x with power := { x.power with blanking := none } }
    else s)

/-! ### Current supervision -/

/-- A sample joins the history, which keeps the 1,000 latest (R147). -/
def PowerRecord.addSample (p : PowerRecord) (v : Nat) : PowerRecord :=
  let h := p.history ++ [v]
  { p with history := h.drop (h.length - Config.historyLimit), sampleDue := false }

/-- The sample taken now is blanked: its count is in s + 1 to s + inrush_blank_ms (R146; log 13). With a full history the
window is long over, also when the count has come round to s again. -/
def PowerRecord.blanked (p : PowerRecord) (now : Count) : Bool :=
  match p.periodStart with
  | some t => (now - t).toNat ≤ p.blankLength && p.history.length < Config.historyLimit
  | none => false

/-- The trip field is set and its fault request sent (R148, R150). -/
def Slot.tripWith (x : Slot) (accumulator : Nat) (trip : Trip) (cause : FaultCause) (v : Nat) : Slot :=
  { x with
    power := { x.power with accumulator := accumulator, trip := trip }
    faultRequests := x.faultRequests ++ [⟨cause, BitVec.ofNat 16 v, x.power.period⟩] }

/-- One sample of a slot (R147 to R151). -/
def Slot.takeSample (x : Slot) (now : Count) (v : Nat) : Slot :=
  let y : Slot := { x with power := x.power.addSample v }
  if x.power.trip ≠ .clear then y
  else if v = Config.fullScale then y.tripWith x.power.accumulator .short .short v
  else if x.power.blanked now then y
  else
    let computed := x.power.accumulator + v - x.profile.currentLimit
    if x.profile.tripBudget ≤ computed then y.tripWith x.profile.tripBudget .overcurrent .overcurrent v
    else { y with power := { y.power with accumulator := computed } }

/-- CURRENT_SAMPLE (R147): one sample for each step of the time base from each slot whose VBUS is on (log 3). -/
def execCurrentSample (i : SlotId) (milliamps : Nat) (s : State) : Host.Outcome State Fault Refusal :=
  .next (if (s.slot i).power.vbus && (s.slot i).power.sampleDue then
      s.modSlot i fun x => x.takeSample s.now (min milliamps Config.fullScale)
    else s)

/-- FAULT is entered again while it stands: the further-faults count rises by 1 (R19). -/
def Slot.countFurther (x : Slot) : Slot :=
  { x with
    faultRecord := x.faultRecord.map fun r => { r with further := min (r.further + 1) Config.furtherLimit } }

/-- A fault request of the power block is taken by the slot's state and powered period (R17, R152). -/
def State.takeFaultRequest (s : State) (i : SlotId) (r : FaultRequest) : State :=
  let x := s.slot i
  if x.state.powered && x.power.period = r.period then s.enterFault i r.cause r.detail
  else if x.state = .fault && x.faultPeriod = some r.period then s.modSlot i Slot.countFurther
  else s

/-- FAULT_REQUEST (R152): the slot engine takes the oldest request of the power block. -/
def execFaultRequest (i : SlotId) (s : State) : Host.Outcome State Fault Refusal :=
  .next (match (s.slot i).faultRequests with
    | [] => s
    | r :: rest => (s.modSlot i fun x => { x with faultRequests := rest }).takeFaultRequest i r)

end Sys2Proof.Machine
end

