-- ==== Sys2Proof/Machine/OperationCommands.lean ====
section
/-! DEFINITION. DIRECT, PUSH, CANCEL and QUERY_OPERATIONS (chapter 4), and what the two sides of the exchange between the
fan-out engine and the slot engines take: APPEND, WITHDRAW and the six reports (4.3, 4.4). -/

namespace Sys2Proof.Machine

/-- Step 5 of R70 for a DIRECT: a payload of at most 240 bytes. -/
def directWork (payload : List Byte) : Except ResultCode Work :=
  if 240 < payload.length then .error .tooLong else .ok (.directive payload)

/-- Step 6 of R70 for a PUSH, with the copies an accepted operation keeps (R134). -/
def State.pushWork (s : State) (image : Byte) : Except ResultCode Work :=
  match imageNumber image with
  | none => .error .badImage
  | some k =>
    match (s.image k).state with
    | .free => .error .badImage
    | .ready =>
      .ok (.push k (s.image k).generation (s.image k).fields.highMark ((s.image k).fields.expectedCrc.getD 0))
    | _ => .error .wrongState

/-- DIRECT (R70 to R74). -/
def execDirect (tag : Tag) (body : Body DirectFields) (s : State) : Host.Outcome State Fault Refusal :=
  .next (s.requestWith tag codeDirect body fun f s => s.operate tag codeDirect f.op (directWork f.payload))

/-- PUSH (R134). -/
def execPush (tag : Tag) (body : Body PushFields) (s : State) : Host.Outcome State Fault Refusal :=
  .next (s.requestWith tag codePush body fun f s => s.operate tag codePush f.op (s.pushWork f.image))

/-- CANCEL (R93): the receipt comes before the report of the operation it cancels. -/
def execCancel (tag : Tag) (body : Body Tag) (s : State) : Host.Outcome State Fault Refusal :=
  .next (s.requestWith tag codeCancel body fun target s =>
    match s.findOp target with
    | none => s.answer tag codeCancel .notFound
    | some o =>
      if o.phase = .live then
        ((s.answer tag codeCancel .accepted).cancelMembers target .host).complete target .cancelled
      else s.answer tag codeCancel .tooLate)

/-- The summary of an entry (R94). -/
def Operation.summary (o : Operation) : OperationSummary :=
  { tag := o.tag
    isPush := match o.work with
      | .push .. => true
      | .directive _ => false
    reporting := o.phase != .live
    members := o.members.length, passed := o.passed, failed := o.failed, final := o.final }

/-- QUERY_OPERATIONS (R94). -/
def execQueryOperations (tag : Tag) (body : Body Unit) (s : State) : Host.Outcome State Fault Refusal :=
  .next (s.requestWith tag codeQueryOperations body fun _ s =>
    s.answer tag codeQueryOperations .accepted 0 (.operations s.freeGather (s.ops.map Operation.summary)))

/-! ### What a slot engine takes -/

/-- APPEND (R75): the slot engine takes the oldest request that waits for it, when it is an append. -/
def execAppend (i : SlotId) (s : State) : Host.Outcome State Fault Refusal :=
  .next (match (s.slot i).requests with
    | .append _ :: _ => s.takeRequest i
    | _ => s)

/-- WITHDRAW (R78): the slot engine takes the oldest request that waits for it, when it is a withdraw. -/
def execWithdraw (i : SlotId) (s : State) : Host.Outcome State Fault Refusal :=
  .next (match (s.slot i).requests with
    | .withdraw _ :: _ => s.takeRequest i
    | _ => s)

/-! ### What the fan-out engine takes -/

/-- The report has left the slot's channel. -/
def State.popReport (s : State) (i : SlotId) : State := s.modSlot i fun x => { x with reports := x.reports.drop 1 }

/-- A QUEUED member of a LIVE entry becomes ACTIVE, with the start time and the window reported (R80). A start
report left from a freed operation counts for a new one with its tag, as for State.endMember (log 32). -/
def Operation.start (o : Operation) (i : SlotId) (time : Count) (window : Nat) : Operation :=
  if o.phase = .live then
    { o with
      members := o.members.map fun m =>
        if m.slot = i && m.status = .queued then { m with status := .active, started := some (time, window) } else m }
  else o

/-- START_REPORT (R80). -/
def execStartReport (i : SlotId) (s : State) : Host.Outcome State Fault Refusal :=
  .next (match (s.slot i).reports with
    | ⟨t, .start time window⟩ :: _ => (s.popReport i).modOp t fun o => o.start i time window
    | _ => s)

/-- The record of a member whose RESULT is taken: PASSED for class PASS, FAILED for any other, with the first
min(length, R) bytes (R81). -/
def resultStatus (o : Operation) (m : Member) (time : Count) (cls : ResultClass) (payload : List Byte) : MemberStatus :=
  let r : MemberResult :=
    { cls := cls
      responseMs := time - (match m.started with
        | some (start, _) => start
        | none => time)
      length := payload.length
      truncated := o.reply < payload.length
      bytes := payload.take o.reply }
  if cls = .pass then .passed r else .failed r

/-- RESULT_REPORT (R81, R84). -/
def execResultReport (i : SlotId) (s : State) : Host.Outcome State Fault Refusal :=
  .next (match (s.slot i).reports with
    | ⟨t, .result time cls payload⟩ :: _ =>
      (s.popReport i).endMember t i (fun st => st = .active) fun o m => resultStatus o m time cls payload
    | _ => s)

/-- WINDOW_EXPIRY_REPORT (R82, R84). -/
def execWindowExpiryReport (i : SlotId) (s : State) : Host.Outcome State Fault Refusal :=
  .next (match (s.slot i).reports with
    | ⟨t, .windowExpiry⟩ :: _ => (s.popReport i).endMember t i (fun st => st = .active) fun _ _ => .timedOut .window
    | _ => s)

/-- QUEUE_LIMIT_REPORT (R82, R84). -/
def execQueueLimitReport (i : SlotId) (s : State) : Host.Outcome State Fault Refusal :=
  .next (match (s.slot i).reports with
    | ⟨t, .queueLimit⟩ :: _ => (s.popReport i).endMember t i (fun st => st = .queued) fun _ _ => .timedOut .queued
    | _ => s)

/-- DROP_REPORT (R83, R84). -/
def execDropReport (i : SlotId) (s : State) : Host.Outcome State Fault Refusal :=
  .next (match (s.slot i).reports with
    | ⟨t, .drop cause⟩ :: _ => (s.popReport i).endMember t i (fun st => !st.isFinal) fun _ _ => .dropped cause
    | _ => s)

/-- STREAM_DAMAGE_REPORT (R83, R84). -/
def execStreamDamageReport (i : SlotId) (s : State) : Host.Outcome State Fault Refusal :=
  .next (match (s.slot i).reports with
    | ⟨t, .streamDamage⟩ :: _ =>
      (s.popReport i).endMember t i (fun st => !st.isFinal) fun _ _ => .dropped .imageDamaged
    | _ => s)

end Sys2Proof.Machine
end

