-- ==== Sys2Proof/Machine/PortCommands.lean ====
section
/-! DEFINITION. The commands of the port and the resets: POWER_ON_RESET, HOST_PORT_CONFIGURED, HOST_PORT_DETACH,
MALFORMED_TRANSFER, IDENTIFY, RESTART, and what the uplink reports as sent: RECEIPT_SENT, GATHER_REPORT_SENT,
BRIDGE_OUT_SENT, NOTICE_BEGUN (chapter 10). -/

namespace Sys2Proof.Machine

/-- POWER_ON_RESET (R29, R191, R194). -/
def execPowerOnReset (banksHigh ceilingHigh : Bool) (s : State) : Host.Outcome State Fault Refusal :=
  .next (s.powerUp banksHigh ceilingHigh)

/-- HOST_PORT_CONFIGURED (R184): the waiting messages may be sent from now on. -/
def execHostPortConfigured (s : State) : Host.Outcome State Fault Refusal :=
  .next (State.arbitrate { s with port := { s.port with configured := true } })

/-- HOST_PORT_DETACH (R184, R189): taken while the port is CONFIGURED, and otherwise of no effect. -/
def execHostPortDetach (s : State) : Host.Outcome State Fault Refusal :=
  .next (if s.port.configured then s.detachPort else s)

/-- MALFORMED_TRANSFER (R185): the first check that fails gives the receipt. A transfer that passes is no such event. -/
def execMalformedTransfer (transfer : List Byte) (s : State) : Host.Outcome State Fault Refusal :=
  .next (s.request fun s =>
    match transferFailure transfer with
    | some (tag, kind, isUnknown) => s.answer tag kind (if isUnknown then .unknownKind else .malformed)
    | none => s)

/-- IDENTIFY (R192). -/
def execIdentify (tag : Tag) (body : Body Unit) (s : State) : Host.Outcome State Fault Refusal :=
  .next (s.requestWith tag codeIdentify body fun _ s =>
    s.answer tag codeIdentify .accepted 0 (.identity ⟨s.straps.banksTwo, s.straps.ceilingFour, s.now⟩))

/-- RESTART (R193): the intake hold is set and the receipt queued; the effects wait until it has been sent. -/
def execRestart (tag : Tag) (body : Body Unit) (s : State) : Host.Outcome State Fault Refusal :=
  .next (s.requestWith tag codeRestart body fun _ s =>
    State.answer { s with port := { s.port with intakeHold := true } } tag codeRestart .accepted)

/-- The receipt that a RESTART waits for (R193). -/
def Receipt.endsRestart (r : Receipt) (p : Port) : Bool := r.kind == codeRestart && r.result == .accepted && p.intakeHold

/-- RECEIPT_SENT (R188): the number of waiting receipts falls by 1, and a RESTART receipt starts the RESTART's effects. -/
def execReceiptSent (s : State) : Host.Outcome State Fault Refusal :=
  .next (match s.uplink.sends .receipt, s.uplink.receipts with
    | true, r :: rest =>
      let t : State := { s with uplink := { s.uplink.freed with receipts := rest } }
      State.arbitrate (if r.endsRestart s.port then t.restartEffects else t)
    | _, _ => s)

/-- GATHER_REPORT_SENT (R86): the operation's entry and reservation are freed. -/
def execGatherReportSent (s : State) : Host.Outcome State Fault Refusal :=
  .next (match s.uplink.sends .gather, s.uplink.gathers with
    | true, g :: rest =>
      State.arbitrate
        { s with
          ops := s.ops.filter fun o => !(o.tag = g.tag)
          uplink := { s.uplink.freed with gathers := rest } }
    | _, _ => s)

/-- BRIDGE_OUT_SENT (R169): the slot's message waiting field is cleared, and the next message may be built. -/
def execBridgeOutSent (s : State) : Host.Outcome State Fault Refusal :=
  .next (match s.uplink.sends .bridgeOut, s.uplink.bridgeOuts with
    | true, m :: rest =>
      State.arbitrate
        ((State.modSlot { s with uplink := { s.uplink.freed with bridgeOuts := rest } } m.slot
          fun x => { x with messageWaiting := false }).buildBridgeOut m.slot true)
    | _, _ => s)

/-- NOTICE_BEGUN (R179, R188): with the pipe free and no other class waiting, the oldest notice is begun with its slot's
pending set as it stands, or discarded when that set is empty. A notice that was on the pipe has ended (log 11). -/
def execNoticeBegun (s : State) : Host.Outcome State Fault Refusal :=
  .next (match s.uplink.notices with
    | i :: rest =>
      if s.port.configured && s.uplink.sending.isNone && s.uplink.firstClass.isNone then
        let x := s.slot i
        State.modSlot
          { s with
            uplink :=
              { s.uplink with
                notices := rest
                noticeOnPipe :=
                  if x.pendingEvents = 0 then none
                  else some ⟨i, x.pendingEvents, x.agentUpCause, s.now⟩
                turns := [] } }
          i fun x => { x with noticeWaiting := false }
      else s
    | [] => s)

end Sys2Proof.Machine
end

