-- ==== Sys2Proof/Machine/SlotCommands.lean ====
section
/-! DEFINITION. SET_PROFILE, the seven actions of SLOT_CONTROL, QUERY_SLOTS (chapter 1), MEASURE and PRESS_KEY
(chapter 7). -/

namespace Sys2Proof.Machine

/-! ### SET_PROFILE -/

/-- Whether the i-th profile field is present (R22). -/
def profileHas (f : ProfileFields) (k : Nat) : Bool := f.mask.getLsbD k

/-- The mask has no bit above bit 8, and the yes/no bytes that are present are 0 or 1 (R196). -/
def profileCodes (f : ProfileFields) : Bool :=
  f.mask.toNat < 512 && (!profileHas f 3 || isFlagByte f.autostart) && (!profileHas f 4 || isFlagByte f.autoRecover)

/-- The value a present field is given, as it is clamped (R21, R22); an absent field keeps the value it has. -/
def profileValue (f : ProfileFields) (k lo hi given held : Nat) : Nat :=
  if profileHas f k then clampTo lo hi given else held

/-- The profile with every present field but rate_ceiling written (R22). -/
def Profile.write (p : Profile) (f : ProfileFields) : Profile :=
  { rateCeiling := p.rateCeiling
    bootAllow := profileValue f 1 1000 120000 f.bootAllow.toNat p.bootAllow
    keyPress := profileValue f 2 0 10000 f.keyPress.toNat p.keyPress
    autostart := if profileHas f 3 then f.autostart == 1 else p.autostart
    autoRecover := if profileHas f 4 then f.autoRecover == 1 else p.autoRecover
    recoverOff := profileValue f 5 100 10000 f.recoverOff.toNat p.recoverOff
    currentLimit := profileValue f 6 100 3000 f.currentLimit.toNat p.currentLimit
    tripBudget := profileValue f 7 1000 200000 f.tripBudget.toNat p.tripBudget
    inrushBlank := profileValue f 8 0 255 f.inrushBlank.toNat p.inrushBlank }

/-- The fields that clamping changed: bit i for the i-th field in layout order (R22, R187). -/
def profileMask (f : ProfileFields) (ceiling : Nat) : Half :=
  maskOf
    [profileValue f 0 0 ceiling f.rateCeiling.toNat f.rateCeiling.toNat != f.rateCeiling.toNat,
     profileValue f 1 1000 120000 f.bootAllow.toNat f.bootAllow.toNat != f.bootAllow.toNat,
     profileValue f 2 0 10000 f.keyPress.toNat f.keyPress.toNat != f.keyPress.toNat, false, false,
     profileValue f 5 100 10000 f.recoverOff.toNat f.recoverOff.toNat != f.recoverOff.toNat,
     profileValue f 6 100 3000 f.currentLimit.toNat f.currentLimit.toNat != f.currentLimit.toNat,
     profileValue f 7 1000 200000 f.tripBudget.toNat f.tripBudget.toNat != f.tripBudget.toNat,
     profileValue f 8 0 255 f.inrushBlank.toNat f.inrushBlank.toNat != f.inrushBlank.toNat]

/-- A present rate_ceiling is written, or held as the pending ceiling of a powered slot (R23). -/
def Slot.writeCeiling (x : Slot) (f : ProfileFields) (ceiling : Nat) : Slot :=
  if profileHas f 0 then
    let v := clampTo 0 ceiling f.rateCeiling.toNat
    if x.state.powered then { x with pendingCeiling := some v }
    else { x with profile := { x.profile with rateCeiling := v } }
  else x

/-- The latest sample of the history, 0 when it is empty (R157). -/
def PowerRecord.latest (p : PowerRecord) : Nat := p.history.getLast?.getD 0

/-- A trip_budget written at or below the accumulator holds the accumulator at the budget, and trips the slot unless it
has tripped already (R23, R153). -/
def Slot.applyBudget (x : Slot) : Slot :=
  if x.power.vbus && x.profile.tripBudget ≤ x.power.accumulator then
    { x with
      power :=
        { x.power with
          accumulator := x.profile.tripBudget
          trip := if x.power.trip = .clear then .overcurrent else x.power.trip }
      faultRequests :=
        if x.power.trip = .clear then
          x.faultRequests ++ [⟨.overcurrent, BitVec.ofNat 16 x.power.latest, x.power.period⟩]
        else x.faultRequests }
  else x

/-- SET_PROFILE on one slot (R22, R23, R153). -/
def Slot.writeProfile (x : Slot) (f : ProfileFields) (ceiling : Nat) : Slot :=
  let y := Slot.writeCeiling { x with profile := x.profile.write f } f ceiling
  if profileHas f 7 then y.applyBudget else y

/-- SET_PROFILE (R22). -/
def execSetProfile (tag : Tag) (body : Body ProfileFields) (s : State) : Host.Outcome State Fault Refusal :=
  .next (s.requestWith tag codeSetProfile body fun f s =>
    if !profileCodes f then s.answer tag codeSetProfile .malformed
    else if s.straps.namesUnfitted f.set then s.answer tag codeSetProfile .badSlot
    else
      let mask := profileMask f s.straps.ceiling
      ((slotsOf f.set).foldl (fun s i => s.modSlot i fun x => x.writeProfile f s.straps.ceiling) s).answer tag
        codeSetProfile (clampResult mask) mask)

/-! ### SLOT_CONTROL -/

/-- Each slot's engine takes the action by its own state: OK where the state allows it, else WRONG_STATE and no change (R24).
That the slots act in ascending order, and so raise their events and queue their notices (R178), is the model's choice (DESIGN
CHOICE, log 30). -/
def State.actOn (s : State) (allows : Slot → Bool) (act : State → SlotId → State) :
    List SlotId → State × List (SlotId × SlotOutcome)
  | [] => (s, [])
  | i :: rest =>
    if allows (s.slot i) then
      let r := State.actOn (act s i) allows act rest
      (r.1, (i, .ok) :: r.2)
    else
      let r := State.actOn s allows act rest
      (r.1, (i, .wrongState) :: r.2)

/-- A request that acts on the slots of a set (R24, R155): BAD_SLOT when it names an UNFITTED slot, else the outcomes. -/
def State.control (s : State) (tag : Tag) (kind : Byte) (set : SlotSet) (mask : Half) (allows : Slot → Bool)
    (act : State → SlotId → State) : State :=
  if s.straps.namesUnfitted set then s.answer tag kind .badSlot
  else
    let r := s.actOn allows act (slotsOf set)
    r.1.answer tag kind (clampResult mask) mask (.outcomes r.2)

/-- One action of SLOT_CONTROL (R24). -/
def State.slotControl (s : State) (tag : Tag) (body : Body SlotSet) (allows : Slot → Bool)
    (act : State → SlotId → State) : State :=
  s.requestWith tag codeSlotControl body fun set s => s.control tag codeSlotControl set 0 allows act

/-- POWER_ON (R25): OFF to POWERING with restart cause HOST. -/
def execPowerOn (tag : Tag) (body : Body SlotSet) (s : State) : Host.Outcome State Fault Refusal :=
  .next (s.slotControl tag body (fun x => x.state == .off) fun s i =>
    (s.modSlot i fun x => { x with restartCause := .host }).enterPowering i)

/-- POWER_OFF (R25): a powered slot to OFF, its members dropped. -/
def execPowerOff (tag : Tag) (body : Body SlotSet) (s : State) : Host.Outcome State Fault Refusal :=
  .next (s.slotControl tag body (fun x => x.state.powered) fun s i => s.stopSlot i .powerOff .off)

/-- CYCLE (R25): a powered or OFF slot to RECOVERING with restart cause HOST, its members dropped. -/
def execCycle (tag : Tag) (body : Body SlotSet) (s : State) : Host.Outcome State Fault Refusal :=
  .next (s.slotControl tag body (fun x => x.state.powered || x.state == .off) fun s i =>
    (s.stopSlot i .powerOff .recovering).enterRecovering i .host)

/-- The state RESET_SLOT leaves a slot in (R26). -/
def Slot.resetState (x : Slot) : SlotState :=
  match x.state with
  | .fault => .fault
  | .inhibited => .inhibited
  | .unfitted => .unfitted
  | _ => if x.present then .off else .vacant

/-- RESET_SLOT (R26): the slot stops, and its ring, debounce timer and attempt count are set back. -/
def execResetSlot (tag : Tag) (body : Body SlotSet) (s : State) : Host.Outcome State Fault Refusal :=
  .next (s.slotControl tag body (fun x => x.state != .unfitted) fun s i =>
    (s.stopSlot i .slotReset (s.slot i).resetState).modSlot i fun x =>
      Slot.startDebounce { x with ring := [], wrapped := false, recoveryAttempts := 0 } s.now)

/-- CLEAR_FAULT on a slot in FAULT (R27): the record is cleared, and a seated handset's nest is checked. -/
def State.clearFault (s : State) (i : SlotId) : State :=
  let t := s.modSlot i fun x => { x with faultRecord := none }
  if (s.slot i).present then
    match s.nestCheck i with
    | some expected => (t.keepNestCode i).writeFault i .nestCode (nestDetail (s.slot i).nestLines expected)
    | none => (t.keepNestCode i).modSlot i fun x => { x with state := .off }
  else t.modSlot i fun x => { x with state := .vacant }

/-- CLEAR_FAULT (R27). -/
def execClearFault (tag : Tag) (body : Body SlotSet) (s : State) : Host.Outcome State Fault Refusal :=
  .next (s.slotControl tag body (fun x => x.state == .fault) fun s i => s.clearFault i)

/-- DISABLE (R27): the host disable flag is set, and a slot not yet INHIBITED is inhibited (R8). -/
def execDisable (tag : Tag) (body : Body SlotSet) (s : State) : Host.Outcome State Fault Refusal :=
  .next (s.slotControl tag body (fun x => x.state != .unfitted) fun s i =>
    let t := s.modSlot i fun x => { x with disabled := true }
    if (s.slot i).state = .inhibited then t else t.enterInhibited i .disabled)

/-- ENABLE (R27): the flag is cleared, and an INHIBITED slot whose drawer is closed leaves INHIBITED (R9). -/
def execEnable (tag : Tag) (body : Body SlotSet) (s : State) : Host.Outcome State Fault Refusal :=
  .next (s.slotControl tag body (fun x => x.state != .unfitted) fun s i =>
    let t := s.modSlot i fun x => { x with disabled := false }
    if (s.slot i).state = .inhibited && !s.drawerOpen i then t.leaveInhibited i else t)

/-! ### QUERY_SLOTS -/

/-- The in-flight field of a slot record (R28). -/
def Slot.inFlightView (x : Slot) : InFlightView :=
  match x.inFlight with
  | none => .none
  | some f =>
    match f.owner, f.transaction with
    | none, _ => .orphan
    | some t, .directive => .directive t
    | some t, .stream _ => .stream t

/-- The slot record of QUERY_SLOTS (R28). A bridged slot shows its raw rate, which is its link's rate index (R174). -/
def State.slotRecord (s : State) (i : SlotId) : SlotRecord :=
  let x := s.slot i
  { slot := i, state := x.state, present := x.present, disabled := x.disabled, interlockOpen := s.drawerOpen i,
    lastNestCode := x.lastNestCode, rate := x.link.rate, score := x.link.score, queueDepth := x.queue.length,
    inFlight := x.inFlightView, restartCause := x.restartCause, recoveryAttempts := x.recoveryAttempts, agent := x.agent,
    faultRecord := x.faultRecord, pendingCeiling := x.pendingCeiling, profile := x.profile }

/-- QUERY_SLOTS (R28). -/
def execQuerySlots (tag : Tag) (body : Body SlotSet) (s : State) : Host.Outcome State Fault Refusal :=
  .next (s.requestWith tag codeQuerySlots body fun set s =>
    if s.straps.namesUnfitted set then s.answer tag codeQuerySlots .badSlot
    else s.answer tag codeQuerySlots .accepted 0 (.slots ((slotsOf set).map s.slotRecord)))

/-! ### MEASURE and PRESS_KEY -/

/-- The mean of the history, 0 when it is empty (R158). -/
def PowerRecord.mean (p : PowerRecord) : Nat := p.history.sum / p.history.length

/-- The measurement record of a slot (R157). -/
def State.measurement (s : State) (i : SlotId) : Measurement :=
  let p := (s.slot i).power
  { slot := i, vbus := p.vbus, blanking := p.blanking.isSome,
    keyRemaining := p.key.map fun t => t.length - elapsed s.now t, trip := p.trip, sampleCount := p.history.length,
    latest := p.latest, mean := p.mean, accumulator := p.accumulator }

/-- MEASURE (R157). -/
def execMeasure (tag : Tag) (body : Body SlotSet) (s : State) : Host.Outcome State Fault Refusal :=
  .next (s.requestWith tag codeMeasure body fun set s =>
    if s.straps.namesUnfitted set then s.answer tag codeMeasure .badSlot
    else s.answer tag codeMeasure .accepted 0 (.measurements ((slotsOf set).map s.measurement)))

/-- PRESS_KEY (R154, R155): a press, or with duration 0 a release, on each slot whose VBUS is on. An empty set with a
duration above 10,000 meets two sentences of R155, one that gives CLAMPED and one that gives ACCEPTED: that it answers CLAMPED
is the model's choice (DESIGN CHOICE, log 34). -/
def execPressKey (tag : Tag) (body : Body PressKeyFields) (s : State) : Host.Outcome State Fault Refusal :=
  .next (s.requestWith tag codePressKey body fun f s =>
    let duration := clampTo 0 10000 f.duration.toNat
    s.control tag codePressKey f.set (maskOf [duration != f.duration.toNat]) (fun x => x.power.vbus) fun s i =>
      s.modSlot i fun x => { x with power := { x.power with key := startTimer s.now duration } })

end Sys2Proof.Machine
end

