-- ==== Sys2Proof/Machine/TableCommands.lean ====
section
/-! DEFINITION. The group table, the fixture table and the translation tables (chapter 3), READ_EVENTS and
SET_NOTICE_MASK (chapter 9). -/

namespace Sys2Proof.Machine

/-! ### Groups -/

/-- The first check of R57 that a DEFINE_GROUP fails, but for its member set. -/
def groupRefusal (f : GroupFields) : Option ResultCode :=
  if (policyCode f.policy 0).isNone then some .malformed
  else if f.group.toNat = 0 || 31 < f.group.toNat then some .badGroup
  else none

/-- The entry an accepted DEFINE_GROUP stores (R58). -/
def groupEntry (f : GroupFields) : Group :=
  { members := f.members
    policy := (policyCode f.policy (clampQuorum f.k.toNat (slotCount f.members))).getD .all
    timeout := clampTo 1 60000 f.timeout.toNat
    reply := clampTo 0 240 f.replyMax.toNat }

/-- The fields of a DEFINE_GROUP that clamping changed: bit 0 k, bit 1 timeout, bit 2 reply_max (R58, R187). -/
def groupMask (f : GroupFields) : Half :=
  maskOf
    [f.policy == 2 && clampQuorum f.k.toNat (slotCount f.members) != f.k.toNat,
     clampTo 1 60000 f.timeout.toNat != f.timeout.toNat, clampTo 0 240 f.replyMax.toNat != f.replyMax.toNat]

/-- Group entry `n`, 1 to 31, is replaced whole (R58) or returns to UNDEFINED (R59). -/
def State.setGroup (s : State) (n : Nat) (g : Option Group) : State :=
  { s with groups := s.groups.setIfInBounds (n - 1) g }

/-- DEFINE_GROUP (R57, R58). -/
def execDefineGroup (tag : Tag) (body : Body GroupFields) (s : State) : Host.Outcome State Fault Refusal :=
  .next (s.requestWith tag codeDefineGroup body fun f s =>
    match groupRefusal f with
    | some c => s.answer tag codeDefineGroup c
    | none =>
      if s.straps.namesUnfitted f.members then s.answer tag codeDefineGroup .badSlot
      else
        (s.setGroup f.group.toNat (some (groupEntry f))).answer tag codeDefineGroup (clampResult (groupMask f))
          (groupMask f))

/-- UNDEFINE_GROUP: a DEFINE_GROUP with the undefine flag (R57, R59). -/
def execUndefineGroup (tag : Tag) (body : Body GroupFields) (s : State) : Host.Outcome State Fault Refusal :=
  .next (s.requestWith tag codeDefineGroup body fun f s =>
    match groupRefusal f with
    | some c => s.answer tag codeDefineGroup c
    | none => (s.setGroup f.group.toNat none).answer tag codeDefineGroup .accepted)

/-! ### The fixture table -/

/-- The first slot, in ascending order, whose code has not exactly four of its eight bits set (R62 step 2). -/
def firstBadCode (codes : Vector Byte 24) : Option SlotId := (List.finRange 24).find? fun i => !validCode (codes.get i)

/-- The first slot, in ascending order, whose code equals a lower slot's, with the lowest such slot (R62 step 3). -/
def firstDuplicate (codes : Vector Byte 24) : Option (SlotId × SlotId) :=
  (List.finRange 24).findSome? fun j =>
    ((List.finRange 24).find? fun i => i < j && codes.get i == codes.get j).map fun i => (i, j)

/-- SET_FIXTURE_LOAD (R62). -/
def execSetFixtureLoad (tag : Tag) (body : Body (Vector Byte 24)) (s : State) : Host.Outcome State Fault Refusal :=
  .next (s.requestWith tag codeSetFixture body fun codes s =>
    match firstBadCode codes with
    | some i => s.answer tag codeSetFixture .badCode (BitVec.ofNat 16 i.val)
    | none =>
      match firstDuplicate codes with
      | some (i, j) => s.answer tag codeSetFixture .duplicateCode (BitVec.ofNat 16 (i.val + 256 * j.val))
      | none => State.answer { s with fixture := some codes } tag codeSetFixture .accepted)

/-- SET_FIXTURE_CLEAR (R63): the codes are not examined. -/
def execSetFixtureClear (tag : Tag) (body : Body (Vector Byte 24)) (s : State) : Host.Outcome State Fault Refusal :=
  .next (s.requestWith tag codeSetFixture body fun _ s =>
    State.answer { s with fixture := none } tag codeSetFixture .accepted)

/-! ### Translation tables -/

/-- Two pairs carry the same host service (R66 step 4). -/
def duplicateKey : List (Byte × Byte) → Bool
  | [] => false
  | p :: rest => rest.any (fun q => q.1 == p.1) || duplicateKey rest

/-- SET_TRANSLATION (R66). -/
def execSetTranslation (tag : Tag) (body : Body TranslationFields) (s : State) : Host.Outcome State Fault Refusal :=
  .next (s.requestWith tag codeSetTranslation body fun f s =>
    if s.straps.namesUnfitted f.set then s.answer tag codeSetTranslation .badSlot
    else if 8 < f.pairs.length then s.answer tag codeSetTranslation .tooLong
    else if duplicateKey f.pairs then s.answer tag codeSetTranslation .duplicateKey
    else
      ((slotsOf f.set).foldl (fun s i => s.modSlot i fun x => { x with translation := f.pairs }) s).answer tag
        codeSetTranslation .accepted)

/-! ### Events -/

/-- A slot's pending set is taken and cleared in one step (R180). -/
def State.clearEvents (s : State) (i : SlotId) : State :=
  s.modSlot i fun x => { x with pendingEvents := 0, agentUpCause := none }

/-- The entry of READ_EVENTS for a slot (R180). -/
def State.eventEntry (s : State) (i : SlotId) : EventEntry := ⟨i, (s.slot i).pendingEvents, (s.slot i).agentUpCause⟩

/-- READ_EVENTS (R180). -/
def execReadEvents (tag : Tag) (body : Body SlotSet) (s : State) : Host.Outcome State Fault Refusal :=
  .next (s.requestWith tag codeReadEvents body fun set s =>
    if s.straps.namesUnfitted set then s.answer tag codeReadEvents .badSlot
    else
      ((slotsOf set).foldl State.clearEvents s).answer tag codeReadEvents .accepted 0
        (.events ((slotsOf set).map s.eventEntry)))

/-- A slot that holds a newly enabled kind pending, and for which no notice waits, receives one (R181). -/
def State.noticeIfPending (s : State) (enabled : BitVec 8) (i : SlotId) : State :=
  if (s.slot i).pendingEvents &&& enabled != 0 && !(s.slot i).noticeWaiting then s.queueNotice i else s

/-- SET_NOTICE_MASK (R181): the receipt carries the old mask, and the notices are queued after it. -/
def execSetNoticeMask (tag : Tag) (body : Body Half) (s : State) : Host.Outcome State Fault Refusal :=
  .next (s.requestWith tag codeSetNoticeMask body fun m s =>
    if 256 ≤ m.toNat then s.answer tag codeSetNoticeMask .malformed
    else
      let new : BitVec 8 := m.setWidth 8
      (slotsOf s.straps.fittedSet).foldl (fun t i => t.noticeIfPending (new &&& ~~~s.noticeMask) i)
        (State.answer { s with noticeMask := new } tag codeSetNoticeMask .accepted 0 (.mask s.noticeMask)))

end Sys2Proof.Machine
end

