-- ==== Sys2Proof/Machine/Dispatch.lean ====
section
/-! DEFINITION. The meaning of each command: one arm per constructor of `Instr`. -/

namespace Sys2Proof.Machine

def exec (i : Instr) (s : State) : Host.Outcome State Fault Refusal :=
  match i with
  -- the port and the resets
  | .powerOnReset banksHigh ceilingHigh => Sys2Proof.Machine.execPowerOnReset banksHigh ceilingHigh s
  | .hostPortConfigured => Sys2Proof.Machine.execHostPortConfigured s
  | .hostPortDetach => Sys2Proof.Machine.execHostPortDetach s
  | .malformedTransfer transfer => Sys2Proof.Machine.execMalformedTransfer transfer s
  | .identify tag body => Sys2Proof.Machine.execIdentify tag body s
  | .restart tag body => Sys2Proof.Machine.execRestart tag body s
  -- slot control, profile and queries
  | .setProfile tag body => Sys2Proof.Machine.execSetProfile tag body s
  | .powerOn tag body => Sys2Proof.Machine.execPowerOn tag body s
  | .powerOff tag body => Sys2Proof.Machine.execPowerOff tag body s
  | .cycle tag body => Sys2Proof.Machine.execCycle tag body s
  | .resetSlot tag body => Sys2Proof.Machine.execResetSlot tag body s
  | .clearFault tag body => Sys2Proof.Machine.execClearFault tag body s
  | .disable tag body => Sys2Proof.Machine.execDisable tag body s
  | .enable tag body => Sys2Proof.Machine.execEnable tag body s
  | .querySlots tag body => Sys2Proof.Machine.execQuerySlots tag body s
  -- tables
  | .defineGroup tag body => Sys2Proof.Machine.execDefineGroup tag body s
  | .undefineGroup tag body => Sys2Proof.Machine.execUndefineGroup tag body s
  | .setFixtureLoad tag body => Sys2Proof.Machine.execSetFixtureLoad tag body s
  | .setFixtureClear tag body => Sys2Proof.Machine.execSetFixtureClear tag body s
  | .setTranslation tag body => Sys2Proof.Machine.execSetTranslation tag body s
  -- operations
  | .direct tag body => Sys2Proof.Machine.execDirect tag body s
  | .push tag body => Sys2Proof.Machine.execPush tag body s
  | .cancel tag body => Sys2Proof.Machine.execCancel tag body s
  | .queryOperations tag body => Sys2Proof.Machine.execQueryOperations tag body s
  -- images
  | .imageDefine tag body => Sys2Proof.Machine.execImageDefine tag body s
  | .imageWrite tag body => Sys2Proof.Machine.execImageWrite tag body s
  | .imageWriteAccessDone lostOne lostTwo => Sys2Proof.Machine.execImageWriteAccessDone lostOne lostTwo s
  | .imageCommit tag body => Sys2Proof.Machine.execImageCommit tag body s
  | .imageRelease tag body => Sys2Proof.Machine.execImageRelease tag body s
  | .imageQuery tag body => Sys2Proof.Machine.execImageQuery tag body s
  -- measurement, key, console, bridge, events
  | .measure tag body => Sys2Proof.Machine.execMeasure tag body s
  | .pressKey tag body => Sys2Proof.Machine.execPressKey tag body s
  | .readConsole tag body => Sys2Proof.Machine.execReadConsole tag body s
  | .openBridge tag body => Sys2Proof.Machine.execOpenBridge tag body s
  | .bridgeData tag body => Sys2Proof.Machine.execBridgeData tag body s
  | .closeBridge tag body => Sys2Proof.Machine.execCloseBridge tag body s
  | .readEvents tag body => Sys2Proof.Machine.execReadEvents tag body s
  | .setNoticeMask tag body => Sys2Proof.Machine.execSetNoticeMask tag body s
  -- the uplink
  | .receiptSent => Sys2Proof.Machine.execReceiptSent s
  | .gatherReportSent => Sys2Proof.Machine.execGatherReportSent s
  | .bridgeOutSent => Sys2Proof.Machine.execBridgeOutSent s
  | .noticeBegun => Sys2Proof.Machine.execNoticeBegun s
  -- presence and interlock inputs
  | .presenceContactChange slot seated nestLines => Sys2Proof.Machine.execPresenceContactChange slot seated nestLines s
  | .presenceDebounceExpiry slot => Sys2Proof.Machine.execPresenceDebounceExpiry slot s
  | .interlockInputChange bank isOpen => Sys2Proof.Machine.execInterlockInputChange bank isOpen s
  | .interlockSettleExpiry bank => Sys2Proof.Machine.execInterlockSettleExpiry bank s
  -- life cycle timers
  | .settleTimerExpiry slot => Sys2Proof.Machine.execSettleTimerExpiry slot s
  | .bootAllowanceExpiry slot => Sys2Proof.Machine.execBootAllowanceExpiry slot s
  | .resyncAllowanceExpiry slot => Sys2Proof.Machine.execResyncAllowanceExpiry slot s
  | .recoveryOffTimerExpiry slot => Sys2Proof.Machine.execRecoveryOffTimerExpiry slot s
  -- the slot link
  | .hello slot detector seq service payload => Sys2Proof.Machine.execHello slot detector seq service payload s
  | .linkAck slot seq service payload => Sys2Proof.Machine.execLinkAck slot seq service payload s
  | .rateExchangeWaitExpiry slot => Sys2Proof.Machine.execRateExchangeWaitExpiry slot s
  | .result slot seq service payload => Sys2Proof.Machine.execResult slot seq service payload s
  | .text slot seq service payload => Sys2Proof.Machine.execText slot seq service payload s
  | .streamCredit slot seq service payload => Sys2Proof.Machine.execStreamCredit slot seq service payload s
  | .formatError slot frame => Sys2Proof.Machine.execFormatError slot frame s
  | .crcError slot => Sys2Proof.Machine.execCrcError slot s
  | .receiverStallExpiry slot => Sys2Proof.Machine.execReceiverStallExpiry slot s
  | .linkFrameSent slot => Sys2Proof.Machine.execLinkFrameSent slot s
  | .abortFrameSent slot => Sys2Proof.Machine.execAbortFrameSent slot s
  | .streamOpenSent slot => Sys2Proof.Machine.execStreamOpenSent slot s
  | .streamDataSent slot => Sys2Proof.Machine.execStreamDataSent slot s
  | .streamChunkRead slot lostOne lostTwo => Sys2Proof.Machine.execStreamChunkRead slot lostOne lostTwo s
  | .damageStop slot => Sys2Proof.Machine.execDamageStop slot s
  -- deadlines
  | .memberWindowExpiry slot => Sys2Proof.Machine.execMemberWindowExpiry slot s
  | .queueLimitExpiry slot => Sys2Proof.Machine.execQueueLimitExpiry slot s
  | .abortWaitExpiry slot => Sys2Proof.Machine.execAbortWaitExpiry slot s
  | .keyPressExpiry slot => Sys2Proof.Machine.execKeyPressExpiry slot s
  | .blankingWindowExpiry slot => Sys2Proof.Machine.execBlankingWindowExpiry slot s
  -- current supervision
  | .currentSample slot milliamps => Sys2Proof.Machine.execCurrentSample slot milliamps s
  | .faultRequest slot => Sys2Proof.Machine.execFaultRequest slot s
  -- the bridge
  | .bridgeIdleTimerExpiry slot => Sys2Proof.Machine.execBridgeIdleTimerExpiry slot s
  | .breakEnd slot => Sys2Proof.Machine.execBreakEnd slot s
  | .rawByteReceived slot byte => Sys2Proof.Machine.execRawByteReceived slot byte s
  | .bridgeOutGatheringExpiry slot => Sys2Proof.Machine.execBridgeOutGatheringExpiry slot s
  | .bridgeByteSent slot => Sys2Proof.Machine.execBridgeByteSent slot s
  -- the clear/verify engine
  | .clearingJobEnd => Sys2Proof.Machine.execClearingJobEnd s
  | .verificationJobEnd lostOne lostTwo => Sys2Proof.Machine.execVerificationJobEnd lostOne lostTwo s
  -- the exchange between the fan-out engine and the slot engines
  | .append slot => Sys2Proof.Machine.execAppend slot s
  | .withdraw slot => Sys2Proof.Machine.execWithdraw slot s
  | .startReport slot => Sys2Proof.Machine.execStartReport slot s
  | .resultReport slot => Sys2Proof.Machine.execResultReport slot s
  | .windowExpiryReport slot => Sys2Proof.Machine.execWindowExpiryReport slot s
  | .queueLimitReport slot => Sys2Proof.Machine.execQueueLimitReport slot s
  | .dropReport slot => Sys2Proof.Machine.execDropReport slot s
  | .streamDamageReport slot => Sys2Proof.Machine.execStreamDamageReport slot s
  | .sequenceErrorFrame slot seq => Sys2Proof.Machine.execSequenceErrorFrame slot seq s

end Sys2Proof.Machine
end

