-- ==== Sys2Proof/Machine/Layouts.lean ====
section
/-! DEFINITION. The bytes of the device's own messages and of its slot link frames (10.6.2 to 10.6.6, R195). A field whose
value is absent and that no flag marks carries 0xFF or 0xFFFF; one that a flag marks absent, or that does not apply,
carries 0 (log 20). -/

namespace Sys2Proof.Machine

/-! ### Fields -/

def byteField (n : Nat) : List Byte := toLittleEndian 1 n

def halfField (n : Nat) : List Byte := toLittleEndian 2 n

def wordField (n : Nat) : List Byte := toLittleEndian 4 n

def slotField (i : SlotId) : List Byte := byteField i.val

/-! ### Codes (10.6.2) -/

def SlotState.code : SlotState → Nat
  | .unfitted => 0
  | .vacant => 1
  | .inhibited => 2
  | .off => 3
  | .powering => 4
  | .booting => 5
  | .ready => 6
  | .busy => 7
  | .aborting => 8
  | .streaming => 9
  | .bridge => 10
  | .recovering => 11
  | .fault => 12

def SlotOutcome.code : SlotOutcome → Nat
  | .ok => 0
  | .wrongState => 1

def Policy.code : Policy → Nat
  | .all => 0
  | .any => 1
  | .quorum _ => 2

/-- k, 0 for a policy other than QUORUM (R195). -/
def Policy.count : Policy → Nat
  | .quorum k => k
  | _ => 0

def SizeClass.code : SizeClass → Nat
  | .kib256 => 0
  | .kib512 => 1
  | .mib1 => 2
  | .mib2 => 3
  | .mib4 => 4

def RestartCause.code : RestartCause → Nat
  | .none => 0
  | .host => 1
  | .part => 2
  | .self => 3

def FaultCause.code : FaultCause → Nat
  | .nestCode => 1
  | .noAgent => 2
  | .hung => 3
  | .linkDegraded => 4
  | .linkLost => 5
  | .overcurrent => 6
  | .short => 7

def Verdict.code : Verdict → Nat
  | .pass => 0
  | .fail => 1
  | .empty => 2
  | .cancelled => 3

/-- The six final statuses; QUEUED and ACTIVE do not occur in a report (R96) and read as 0. -/
def MemberStatus.code : MemberStatus → Nat
  | .queued => 0
  | .active => 0
  | .passed _ => 1
  | .failed _ => 2
  | .timedOut _ => 3
  | .dropped _ => 4
  | .skipped _ => 5
  | .cancelled _ => 6

def DropCause.code : DropCause → Nat
  | .detached => 0x23
  | .interlock => 0x24
  | .disabled => 0x25
  | .agentRestart => 0x26
  | .slotFault => 0x27
  | .slotReset => 0x28
  | .powerOff => 0x29
  | .imageDamaged => 0x2A

/-- The member cause of a status, 0 for none. -/
def MemberStatus.causeCode : MemberStatus → Nat
  | .timedOut .queued => 0x21
  | .timedOut .window => 0x22
  | .dropped c => c.code
  | .skipped (.state st) => st.code
  | .skipped .queueFull => 0x20
  | .cancelled .host => 0x2B
  | .cancelled .earlyDone => 0x2C
  | _ => 0

def ResultClass.code : ResultClass → Nat
  | .pass => 0
  | .fail => 1
  | .error => 2
  | .unsupported => 3
  | .aborted => 4

def ImageState.code : ImageState → Nat
  | .free => 0
  | .clearing => 1
  | .loading => 2
  | .verifying => 3
  | .ready => 4
  | .damaged => 5

def CommitOutcome.code : CommitOutcome → Nat
  | .none => 0
  | .matched => 1
  | .mismatch => 2

def Trip.code : Trip → Nat
  | .clear => 0
  | .overcurrent => 1
  | .short => 2

def ResultCode.code : ResultCode → Nat
  | .accepted => 0x00
  | .clamped => 0x01
  | .malformed => 0x10
  | .unknownKind => 0x11
  | .badSlot => 0x20
  | .badGroup => 0x21
  | .badImage => 0x22
  | .badBase => 0x23
  | .badCode => 0x24
  | .duplicateCode => 0x25
  | .duplicateKey => 0x26
  | .duplicateTag => 0x27
  | .tableFull => 0x30
  | .noRoom => 0x31
  | .tooLong => 0x32
  | .wrongState => 0x40
  | .overlap => 0x41
  | .inUse => 0x42
  | .notFound => 0x43
  | .tooLate => 0x44

/-! ### Messages -/

/-- A message of the control port: kind, flags 0, tag, body length, body (10.1.1, R195). -/
def message (kind : Byte) (tag : Tag) (body : List Byte) : List Byte :=
  [kind, 0] ++ halfField tag.toNat ++ halfField body.length ++ body

def kindReceipt : Byte := 0x80
def kindGather : Byte := 0x81
def kindNotice : Byte := 0x82
def kindBridgeOut : Byte := 0x83

/-- IDENTIFY's reply data (R192). -/
def Identity.layout (d : Identity) : List Byte :=
  halfField Config.vendorCode.toNat ++ halfField Config.partCode.toNat ++ [Config.siliconRevision] ++
    byteField (if d.banksTwo then 2 else 1) ++ byteField (if d.ceilingFour then 4 else 3) ++
    byteField (if d.banksTwo then 24 else 12) ++ byteField Config.operationEntries ++ wordField Config.gatherBytes ++
    wordField Config.storeBytes ++ byteField 8 ++ byteField 32 ++ byteField Config.queueDepth ++
    halfField Config.messageLimit ++ wordField d.now.toNat

/-- The nine profile fields, in SET_PROFILE order, 18 bytes. -/
def Profile.layout (p : Profile) : List Byte :=
  byteField p.rateCeiling ++ wordField p.bootAllow ++ halfField p.keyPress ++ byteField p.autostart.toNat ++
    byteField p.autoRecover.toNat ++ halfField p.recoverOff ++ halfField p.currentLimit ++ wordField p.tripBudget ++
    byteField p.inrushBlank

/-- The in-flight byte and the in-flight tag of a slot record. -/
def InFlightView.layout : InFlightView → List Byte
  | .none => byteField 0 ++ halfField 0xFFFF
  | .directive t => byteField 1 ++ halfField t.toNat
  | .stream t => byteField 2 ++ halfField t.toNat
  | .orphan => byteField 0x81 ++ halfField 0xFFFF

def AgentIdentity.layout (a : AgentIdentity) : List Byte :=
  halfField a.model.toNat ++ halfField a.version.toNat ++ [a.maxRate]

/-- Fault cause, further faults, fault time, fault detail. -/
def FaultRecord.layout (r : FaultRecord) : List Byte :=
  byteField r.cause.code ++ byteField r.further ++ wordField r.time.toNat ++ halfField r.detail.toNat

/-- The bytes of a value that a flag marks held or absent: `n` zero bytes when absent (R195). -/
def held {α : Type} (n : Nat) (write : α → List Byte) : Option α → List Byte
  | some v => write v
  | none => List.replicate n 0

/-- The slot record of QUERY_SLOTS, 44 bytes. -/
def SlotRecord.layout (r : SlotRecord) : List Byte :=
  slotField r.slot ++ byteField r.state.code ++
    [flagByte
      [r.present, r.disabled, r.interlockOpen, r.lastNestCode.isSome, r.agent.isSome, r.faultRecord.isSome,
       r.pendingCeiling.isSome]] ++
    held 1 (fun c => [c]) r.lastNestCode ++ byteField r.rate ++ byteField r.score ++ byteField r.queueDepth ++
    r.inFlight.layout ++ byteField r.restartCause.code ++ byteField r.recoveryAttempts ++
    held 5 AgentIdentity.layout r.agent ++ held 8 FaultRecord.layout r.faultRecord ++
    held 1 byteField r.pendingCeiling ++ r.profile.layout

/-- A field of an image record, or the bytes given when the image is FREE and the field is absent (R119, R130, R195). -/
def Image.field (x : Image) (absent : List Byte) (value : List Byte) : List Byte :=
  if x.state = .free then absent else value

/-- The image record, 23 bytes. The fields of a FREE image but for the state and the generation are absent: 0xFF for one
byte, 0xFFFF for two (10.6), the flags 0 for the CRCs, and for the four bytes of the high mark, which 10.6 leaves open, a
free value (log 20). -/
def Image.layout (number : Nat) (x : Image) : List Byte :=
  byteField number ++ byteField x.state.code ++ halfField x.generation.toNat ++
    x.field [0xFF] (byteField x.fields.base) ++ x.field [0xFF] (byteField x.fields.size.code) ++
    x.field (wordField Config.absentHighMark.toNat) (wordField x.fields.highMark) ++
    [flagByte [x.fields.expectedCrc.isSome, x.fields.computedCrc.isSome]] ++
    held 4 (fun (c : Word) => wordField c.toNat) x.fields.expectedCrc ++
    held 4 (fun (c : Word) => wordField c.toNat) x.fields.computedCrc ++
    x.field [0xFF] (byteField x.fields.outcome.code) ++ x.field (halfField 0xFFFF) (halfField x.fields.corrected) ++
    x.field [0xFF] (byteField x.fields.references)

/-- The measurement record, 15 bytes. -/
def Measurement.layout (m : Measurement) : List Byte :=
  slotField m.slot ++ [flagByte [m.vbus, m.blanking, m.keyRemaining.isSome]] ++ byteField m.trip.code ++
    halfField m.sampleCount ++ halfField m.latest ++ halfField m.mean ++ wordField m.accumulator ++
    held 2 halfField m.keyRemaining

/-- The agent-up cause, 0xFF when it is absent. -/
def agentUpByte : Option RestartCause → List Byte
  | some c => byteField c.code
  | none => [0xFF]

/-- The summary of an entry in QUERY_OPERATIONS, 8 bytes. -/
def OperationSummary.layout (o : OperationSummary) : List Byte :=
  halfField o.tag.toNat ++ byteField o.isPush.toNat ++ byteField o.reporting.toNat ++ byteField o.members ++
    byteField o.passed ++ byteField o.failed ++ byteField o.final

/-- A counted list of records. -/
def counted {α : Type} (l : List α) (write : α → List Byte) : List Byte := byteField l.length ++ (l.map write).flatten

/-- The image records of IMAGE_QUERY, in image number order from `number`. -/
def imageRecords : Nat → List Image → List Byte
  | _, [] => []
  | number, x :: rest => x.layout number ++ imageRecords (number + 1) rest

/-- The reply data of a receipt (10.6.3). -/
def Reply.layout : Reply → List Byte
  | .none => []
  | .identity d => d.layout
  | .outcomes l => counted l fun p => slotField p.1 ++ byteField p.2.code
  | .slots l => counted l SlotRecord.layout
  | .accepted members queued => byteField members ++ byteField queued
  | .operations freeGather l =>
    byteField l.length ++ wordField freeGather ++ (l.map OperationSummary.layout).flatten
  | .highMark n => wordField n
  | .images freeUnits l => byteField freeUnits ++ imageRecords 0 l
  | .measurements l => counted l Measurement.layout
  | .console wrapped bytes => byteField wrapped.toNat ++ halfField bytes.length ++ bytes
  | .freeSpace n => halfField n
  | .discarded n => halfField n
  | .events l => counted l fun e => slotField e.slot ++ [e.pending] ++ agentUpByte e.agentUpCause
  | .mask m => halfField m.toNat

/-- RECEIPT (10.6.3). -/
def Receipt.layout (r : Receipt) : List Byte :=
  message kindReceipt r.tag ([r.kind] ++ byteField r.result.code ++ halfField r.detail.toNat ++ r.reply.layout)

/-- The result of a member that is PASSED or FAILED. -/
def MemberStatus.result? : MemberStatus → Option MemberResult
  | .passed r => some r
  | .failed r => some r
  | _ => none

/-- A member record: 19 bytes, then the stored result bytes (10.6.4). -/
def Member.layout (accepted : Count) (m : Member) : List Byte :=
  let r := m.status.result?
  slotField m.slot ++ byteField m.status.code ++ byteField m.status.causeCode ++
    held 1 (fun (v : MemberResult) => byteField v.cls.code) r ++
    [flagByte [m.started.isSome, (r.map (·.truncated)).getD false, r.isSome]] ++
    held 8 (fun (v : Count × Nat) => wordField (v.1 - accepted).toNat ++ wordField v.2) m.started ++
    held 6
      (fun (v : MemberResult) => wordField v.responseMs.toNat ++ byteField v.length ++ byteField v.bytes.length) r ++
    held 0 (·.bytes) r

/-- How many members hold a status of the code given. -/
def countStatus (l : List Member) (code : Nat) : Nat := (l.filter fun m => m.status.code == code).length

/-- GATHER (10.6.4). -/
def GatherReport.layout (g : GatherReport) : List Byte :=
  message kindGather g.tag
    ((match g.work with
        | .directive _ => byteField 0
        | .push .. => byteField 1) ++
      byteField g.verdict.code ++ byteField g.policy.code ++ byteField g.policy.count ++ [g.service] ++
      (match g.work with
        | .directive _ => [0xFF]
        | .push k .. => byteField k.val) ++
      wordField g.timeout ++ byteField g.reply ++ wordField g.elapsed.toNat ++
      ([1, 2, 3, 4, 5, 6].map fun code => byteField (countStatus g.members code)).flatten ++
      byteField g.members.length ++ (g.members.map fun m => m.layout g.accepted).flatten)

/-- NOTICE (10.6.5): the agent-up cause is 0xFF when AGENT_UP is not pending. -/
def Notice.layout (n : Notice) : List Byte :=
  message kindNotice 0
    (slotField n.slot ++ [n.pending] ++ agentUpByte (if hasEvent n.pending .agentUp then n.agentUpCause else none) ++
      wordField n.time.toNat)

/-- BRIDGE_OUT (10.6.5). -/
def BridgeOut.layout (m : BridgeOut) : List Byte :=
  message kindBridgeOut 0 (slotField m.slot ++ [flagByte [m.loss]] ++ halfField m.bytes.length ++ m.bytes)

/-- The transfer on the bulk IN pipe: the message begun last, while it is being sent (R188). -/
def Uplink.transfer (u : Uplink) : Option (List Byte) :=
  match u.sending with
  | some .receipt => u.receipts.head?.map Receipt.layout
  | some .gather => u.gathers.head?.map GatherReport.layout
  | some .bridgeOut => u.bridgeOuts.head?.map BridgeOut.layout
  | none => u.noticeOnPipe.map Notice.layout

/-! ### Slot link frames (R31, 10.6.6) -/

/-- A frame's bytes without the start byte and the check. -/
def frameBody (f : Frame) : List Byte := [f.kind, f.seq, f.service] ++ halfField f.payload.length ++ f.payload

/-- A frame as it goes on the line: start byte, fields, payload, CRC-16. -/
def frameBytes (f : Frame) : List Byte := [0xC3] ++ frameBody f ++ halfField (crc16 (frameBody f)).toNat

end Sys2Proof.Machine
end

