-- ==== Sys2Proof/Safety.lean ====
section
/-! DEFINITION. What claims about the NF2400 are said in: the parts of the device a command leaves alone, a receipt that
joins the uplink, and the conditions that every state of a run is to meet. -/

namespace Sys2Proof.Machine

/-! ### What a command leaves alone -/

/-- The parts of the device, each with its own fields of `State`. -/
inductive Part where
  /-- the queue of commands -/
  | queue
  /-- the time base -/
  | time
  /-- the latched straps -/
  | straps
  /-- the control port -/
  | port
  /-- the uplink -/
  | uplink
  /-- groups 1 to 31 -/
  | groups
  /-- the fixture table -/
  | fixture
  /-- the Operation Table with gather memory -/
  | operations
  /-- the Image Table -/
  | images
  /-- the image store: its bytes and the codes of its words -/
  | store
  /-- the clear/verify engine: its job list and the blocks done -/
  | jobs
  /-- the store arbiter: its pointer, its grant, and whether the engine has had the store to itself -/
  | arbiter
  /-- the two interlocks -/
  | interlocks
  /-- the notice mask -/
  | mask
  /-- the 24 slots -/
  | slots
  deriving DecidableEq, Repr

/-- A part is the same in two states. -/
def Part.same (s t : State) : Part → Prop
  | .queue => t.pending = s.pending
  | .time => t.now = s.now
  | .straps => t.straps = s.straps
  | .port => t.port = s.port
  | .uplink => t.uplink = s.uplink
  | .groups => t.groups = s.groups
  | .fixture => t.fixture = s.fixture
  | .operations => t.ops = s.ops
  | .images => t.images = s.images
  | .store => t.store = s.store ∧ t.lostBits = s.lostBits
  | .jobs => t.jobs = s.jobs ∧ t.engineBlocks = s.engineBlocks
  | .arbiter => t.arbiterPointer = s.arbiterPointer ∧ t.granted = s.granted ∧ t.engineAlone = s.engineAlone
  | .interlocks => t.interlockA = s.interlockA ∧ t.interlockB = s.interlockB
  | .mask => t.noticeMask = s.noticeMask
  | .slots => t.slots = s.slots

/-- Every part is the same but the ones listed. -/
def keepsBut (touched : List Part) (s t : State) : Prop := ∀ p, p ∉ touched → p.same s t

/-- Every slot is the same but the ones of a set. -/
def slotsBut (touched : SlotId → Prop) (s t : State) : Prop := ∀ j, ¬ touched j → t.slot j = s.slot j

/-- Two records of a slot are the same but for a waiting read of its stream that the store arbiter has granted. -/
def Slot.sameButGrant (x y : Slot) : Prop :=
  y = x ∨ (x.waitingRead.isSome ∧ y = x.modStream fun r => { r with read := .granted })

/-- One receipt has joined the uplink's receipts, and is being sent when the pipe was free (R186, R188). A notice on the pipe
stays, and the receipts are among the classes that may be chosen when it ends (how the model holds this is log 11). -/
def receiptQueued (s t : State) (r : Receipt) : Prop :=
  t.uplink.receipts = s.uplink.receipts ++ [r] ∧ t.uplink.noticeOnPipe = s.uplink.noticeOnPipe ∧
    if s.uplink.sending = none ∧ s.uplink.noticeOnPipe ≠ none then
      t.uplink.sending = none ∧ UplinkClass.receipt ∈ t.uplink.turns
    else t.uplink.sending = some (s.uplink.sending.getD .receipt)

/-- One receipt has joined the uplink's receipts, and the other classes are the same. -/
def receiptJoins (s t : State) (r : Receipt) : Prop :=
  receiptQueued s t r ∧ t.uplink.gathers = s.uplink.gathers ∧ t.uplink.bridgeOuts = s.uplink.bridgeOuts ∧
    t.uplink.notices = s.uplink.notices

/-- The notices queued are one for each slot of a list whose notice-waiting flag has become set, in the list's order
(R178). -/
def noticesFollow (s t : State) (l : List SlotId) : Prop :=
  t.uplink.notices = s.uplink.notices ++ l.filter fun i => !(s.slot i).noticeWaiting && (t.slot i).noticeWaiting

/-- The uplink is the same but for the notices of the slots of a list whose notice-waiting flag has become set. -/
def onlyNotices (s t : State) (l : List SlotId) : Prop :=
  noticesFollow s t l ∧ t.uplink = { s.uplink with notices := t.uplink.notices }

/-- One receipt has joined the uplink, and the notices of the slots acted on; the other classes are the same. -/
def answersWithNotices (s t : State) (r : Receipt) (l : List SlotId) : Prop :=
  receiptQueued s t r ∧ t.uplink.gathers = s.uplink.gathers ∧ t.uplink.bridgeOuts = s.uplink.bridgeOuts ∧
    noticesFollow s t l

/-- The stream of a slot names an image and has not released its reference (R141). -/
def Slot.holds (x : Slot) (k : ImageId) : Bool :=
  match x.stream with
  | some r => r.referenceHeld && r.image == k
  | none => false

/-- The image records when the streams of some slots have released their references (R141). -/
def releasesReferences (s t : State) (gone : SlotId → Bool) : Prop :=
  ∀ k, t.image k =
    { s.image k with
      fields :=
        { (s.image k).fields with
          references :=
            (s.image k).fields.references -
              ((List.finRange 24).filter fun i => gone i && (s.slot i).holds k).length } }

/-- An OPEN_BRIDGE waits behind the slot's rate exchange (R162). -/
def State.deferredOn (s : State) (i : SlotId) : Bool :=
  match s.port.inProgress with
  | some (.openBridge _ j _) => j == i
  | _ => false

/-- The OPEN_BRIDGE that waits behind a rate exchange is refused: it leaves the port, and its WRONG_STATE receipt joins the
uplink, where only the notices of the slots of a list join beside it (R42, R162; log 18; behind a notice, log 11). That the
port is CONFIGURED while a request waits is R190. -/
def deferredRefused (s t : State) (tag : Tag) (l : List SlotId) : Prop :=
  t.port = { s.port with inProgress := none } ∧
    (s.port.configured = true → answersWithNotices s t ⟨tag, 0x15, .wrongState, 0, .none⟩ l)

/-- A command that moves a slot refuses the OPEN_BRIDGE that waits behind the slot's rate exchange, if there is one (R42,
R162; log 18). -/
def refusesDeferred (s t : State) (i : SlotId) : Prop :=
  ∀ tag idleClass, s.port.inProgress = some (.openBridge tag i idleClass) → deferredRefused s t tag [i]

/-- A command of one slot: nothing changes but this slot, the image records and the slot's notices; where an OPEN_BRIDGE waits
behind the slot's rate exchange, what becomes of it is `refusesDeferred`. -/
def onlySlot (s t : State) (i : SlotId) : Prop :=
  keepsBut [.port, .uplink, .images, .slots] s t ∧ slotsBut (· = i) s t ∧
    (s.deferredOn i = false → t.port = s.port ∧ onlyNotices s t [i])

/-- A request's receipt joins the uplink, and nothing else changes. -/
def onlyAnswers (s t : State) (r : Receipt) : Prop := receiptJoins s t r ∧ keepsBut [.uplink] s t

/-- An event kind is pending for a slot. -/
def Slot.hasPending (x : Slot) (k : EventKind) : Bool := hasEvent x.pendingEvents k

/-! ### Requests -/

/-- The commands that the control port takes from the bulk OUT pipe (R185, R186). -/
def isRequest : Instr → Bool
  | .malformedTransfer .. | .identify .. | .restart .. | .setProfile .. | .powerOn .. | .powerOff .. | .cycle ..
  | .resetSlot .. | .clearFault .. | .disable .. | .enable .. | .querySlots .. | .defineGroup .. | .undefineGroup ..
  | .setFixtureLoad .. | .setFixtureClear .. | .setTranslation .. | .direct .. | .push .. | .cancel ..
  | .queryOperations .. | .imageDefine .. | .imageWrite .. | .imageCommit .. | .imageRelease .. | .imageQuery ..
  | .measure .. | .pressKey .. | .readConsole .. | .openBridge .. | .bridgeData .. | .closeBridge .. | .readEvents ..
  | .setNoticeMask .. => true
  | _ => false

/-- The tag and the request kind (10.6.1) of a request whose body has the wrong shape (R196). -/
def misshapenBody : Instr → Option (Tag × Byte)
  | .identify tag (.misshapen _) => some (tag, 0x01)
  | .restart tag (.misshapen _) => some (tag, 0x02)
  | .setProfile tag (.misshapen _) => some (tag, 0x03)
  | .powerOn tag (.misshapen _) => some (tag, 0x04)
  | .powerOff tag (.misshapen _) => some (tag, 0x04)
  | .cycle tag (.misshapen _) => some (tag, 0x04)
  | .resetSlot tag (.misshapen _) => some (tag, 0x04)
  | .clearFault tag (.misshapen _) => some (tag, 0x04)
  | .disable tag (.misshapen _) => some (tag, 0x04)
  | .enable tag (.misshapen _) => some (tag, 0x04)
  | .querySlots tag (.misshapen _) => some (tag, 0x05)
  | .defineGroup tag (.misshapen _) => some (tag, 0x06)
  | .undefineGroup tag (.misshapen _) => some (tag, 0x06)
  | .setFixtureLoad tag (.misshapen _) => some (tag, 0x07)
  | .setFixtureClear tag (.misshapen _) => some (tag, 0x07)
  | .setTranslation tag (.misshapen _) => some (tag, 0x08)
  | .direct tag (.misshapen _) => some (tag, 0x09)
  | .push tag (.misshapen _) => some (tag, 0x0A)
  | .cancel tag (.misshapen _) => some (tag, 0x0B)
  | .queryOperations tag (.misshapen _) => some (tag, 0x0C)
  | .imageDefine tag (.misshapen _) => some (tag, 0x0D)
  | .imageWrite tag (.misshapen _) => some (tag, 0x0E)
  | .imageCommit tag (.misshapen _) => some (tag, 0x0F)
  | .imageRelease tag (.misshapen _) => some (tag, 0x10)
  | .imageQuery tag (.misshapen _) => some (tag, 0x11)
  | .measure tag (.misshapen _) => some (tag, 0x12)
  | .pressKey tag (.misshapen _) => some (tag, 0x13)
  | .readConsole tag (.misshapen _) => some (tag, 0x14)
  | .openBridge tag (.misshapen _) => some (tag, 0x15)
  | .bridgeData tag (.misshapen _) => some (tag, 0x16)
  | .closeBridge tag (.misshapen _) => some (tag, 0x17)
  | .readEvents tag (.misshapen _) => some (tag, 0x18)
  | .setNoticeMask tag (.misshapen _) => some (tag, 0x19)
  | _ => none

/-! ### What becomes of a slot -/

/-- What raising an event kind makes of a slot (R177, R178). -/
def Slot.raised (x : Slot) (k : EventKind) (mask : BitVec 8) : Slot :=
  { x with
    pendingEvents := x.pendingEvents ||| k.bit
    noticeWaiting := x.noticeWaiting || (!hasEvent x.pendingEvents k && hasEvent mask k) }

/-- A slot whose stream has released its reference. -/
def Slot.released (x : Slot) : Slot := x.modStream fun r => { r with referenceHeld := false }

/-- A slot whose members have all been dropped (R6). -/
def Slot.dropped (x : Slot) (c : DropCause) : Slot :=
  { x with reports := x.reports ++ x.inFlightDrop c ++ x.queueDrops c, inFlight := none, queue := [] }

/-- A slot that has stopped, in the state given: its members dropped, VBUS off with the effects of R1, R23 and R145 (the
accumulator at 0, the trip clear, the key released, the timers of the powered states stopped, the link at rest, a pending
ceiling written), the off-timer stopped, the bridge closed. The history, the period start and the agent identity stay. -/
def Slot.stopped (x : Slot) (c : DropCause) (dest : SlotState) : Slot :=
  { x with
    state := dest
    queue := []
    inFlight := none
    reports := x.reports ++ x.inFlightDrop c ++ x.queueDrops c
    power :=
      { x.power with
        vbus := false, blanking := none, accumulator := 0, trip := .clear, key := none, sampleDue := false }
    settle := none
    allowance := none
    abortWait := none
    offTimer := none
    link := ⟨0, 0, 0, 48, true, false, none, .hunting⟩
    tx := ⟨none, [], none, 0⟩
    bridge := none
    profile := { x.profile with rateCeiling := x.pendingCeiling.getD x.profile.rateCeiling }
    pendingCeiling := none }

/-- A slot that has entered POWERING (R10, R144). -/
def Slot.poweredUp (x : Slot) (now : Count) : Slot :=
  { x with
    state := .powering
    settle := some ⟨now, max x.profile.inrushBlank 20⟩
    offTimer := none
    power :=
      { x.power with
        vbus := true, periodStart := some now, history := [], sampleDue := false, period := x.power.period + 1
        blankLength := x.profile.inrushBlank
        blanking := if x.profile.inrushBlank = 0 then none else some ⟨now, x.profile.inrushBlank⟩ } }

/-- The code that a LOADED fixture table stores for a slot (R64). -/
def State.expectedCode (s : State) (i : SlotId) : Option Byte := s.fixture.map fun codes => codes.get i

/-- The nest code is read and kept when the fixture table gives the slot an expected code (R64). -/
def Slot.nestRead (x : Slot) (expected : Option Byte) : Slot :=
  if expected.isSome then { x with lastNestCode := some x.nestLines } else x

/-- The expected code of a nest check that the slot fails: its code has not exactly four bits set or is another one (R4,
R64). -/
def Slot.nestFails (x : Slot) : Option Byte → Option Byte
  | some e => if codeWeight x.nestLines = 4 ∧ x.nestLines = e then none else some e
  | none => none

/-- A slot without a fault record, handled as an ATTACH from step 2 of R4: the nest check, then autostart. -/
def Slot.admitted (x : Slot) (expected : Option Byte) (now : Count) (mask : BitVec 8) : Slot :=
  let y := x.nestRead expected
  match x.nestFails expected with
  | some e =>
    Slot.raised { y with state := .fault, faultPeriod := none, faultRecord := some ⟨.nestCode, now, e ++ x.nestLines, 0⟩ }
      .fault mask
  | none => if x.profile.autostart then Slot.poweredUp { y with restartCause := .host } now else { y with state := .off }

/-- A slot that leaves INHIBITED (R9). -/
def Slot.uninhibited (x : Slot) (expected : Option Byte) (now : Count) (mask : BitVec 8) : Slot :=
  if x.faultRecord.isSome then { x with state := .fault, faultPeriod := none }
  else if x.present then x.admitted expected now mask
  else { x with state := .vacant }

/-- A slot that has taken a fault in a powered state (R17): a record is written when none is held. -/
def Slot.faulted (x : Slot) (cause : FaultCause) (detail : Half) (now : Count) (mask : BitVec 8) : Slot :=
  let y : Slot := { x.stopped .slotFault .fault with faultPeriod := some x.power.period }
  if x.faultRecord.isSome then y else Slot.raised { y with faultRecord := some ⟨cause, now, detail, 0⟩ } .fault mask

/-- A slot whose link has counted a frame, or an error in place of one: the expected value, the score, the step-down mark
that a score of 16 or below sets at a rate index above 0 while no step-down exchange is in progress, and the receiver hunting
for the next frame (R33, R36, R45, R47). -/
def Slot.counted (x : Slot) (expected : Byte) (score : Nat) : Slot :=
  { x with
    link :=
      { x.link with
        expected := expected
        score := score
        receiver := .hunting
        stepDownMark :=
          x.link.stepDownMark ||
            (decide (score ≤ 16) && decide (0 < x.link.rate) &&
              x.link.exchange.map (·.purpose) != some .stepDown) } }

/-- A slot that has counted a good frame (R36, R45). -/
def Slot.countedGood (x : Slot) : Slot := x.counted (x.link.expected + 1) (min (x.link.score + 1) 64)

/-- A slot that has entered RECOVERING (R14). -/
def Slot.recovering (x : Slot) (cause : RestartCause) (now : Count) : Slot :=
  { x.halt with
    state := .recovering, inFlight := none, restartCause := cause, offTimer := some ⟨now, x.profile.recoverOff⟩ }

/-- A slot that has entered ABORTING (R51). -/
def Slot.abortingFrom (x : Slot) : Slot :=
  Slot.raiseFrame
    { x with
      state := .aborting, abortWait := none, inFlight := x.inFlight.map InFlight.aborted
      link := { x.link with exchange := none } }
    kindAbort 0 []

/-! ### What becomes of an operation -/

/-- An operation whose member on a slot has ended with the status given: the counts follow (R68, R69). -/
def Operation.ended (o : Operation) (i : SlotId) (st : MemberStatus) : Operation :=
  { o with
    members := o.members.map fun m => if m.slot = i then { m with status := st } else m
    final := o.final + 1
    passed := if st.isPassed then o.passed + 1 else o.passed
    failed := if st.isFailed then o.failed + 1 else o.failed }

/-- An operation that has completed, its open members CANCELLED (R91, R92, R93). -/
def Operation.closed (o : Operation) (c : CancelCause) (v : Verdict) (now : Count) : Operation :=
  { o with
    members := o.members.map fun m => if m.status.isFinal then m else { m with status := .cancelled c }
    final := o.final + (o.members.filter fun m => !m.status.isFinal).length
    phase := .reporting v now }

/-- The withdraws that reach one slot when an operation completes with open members (R91). -/
def Operation.withdrawsOn (o : Operation) (j : SlotId) : List SlotRequest :=
  (o.openSlots.filter (· = j)).map fun _ => .withdraw o.tag

/-- An operation completes, as it stands in `o`: its entry is REPORTING, its gather report joins the uplink, and its open
members are withdrawn; nothing else changes (R91, R92). -/
def operationCompletes (s t : State) (o : Operation) (c : CancelCause) (v : Verdict) : Prop :=
  t.ops = s.ops.map (fun q => if q.tag = o.tag then o.closed c v s.now else q) ∧
    keepsBut [.uplink, .operations, .slots] s t ∧ t.uplink.receipts = s.uplink.receipts ∧
    t.uplink.gathers =
      s.uplink.gathers ++
        [⟨o.tag, o.work, v, o.policy, o.service, o.timeout, o.reply, o.accepted, s.now - o.accepted,
          (o.closed c v s.now).members⟩] ∧
    t.uplink.bridgeOuts = s.uplink.bridgeOuts ∧ t.uplink.notices = s.uplink.notices ∧
    ∀ j, t.slot j = { s.slot j with requests := (s.slot j).requests ++ o.withdrawsOn j }

/-- A member of a LIVE operation ends, and the completion policy is evaluated (R81 to R83, R87). -/
def memberEnds (s t : State) (o : Operation) (i : SlotId) (st : MemberStatus) : Prop :=
  match (o.ended i st).decision with
  | some v => operationCompletes s t (o.ended i st) .earlyDone v
  | none => t.ops = s.ops.map (fun q => if q.tag = o.tag then o.ended i st else q) ∧ keepsBut [.operations] s t

/-! ### Conditions on every state of a run -/

/-- The states and the switch of a slot: VBUS is on exactly in the powered states (R1), the slots of an absent bank and no
others are UNFITTED (R2), and a fitted slot is INHIBITED exactly while its drawer is open or its disable flag is set
(R7). -/
def State.slotStateSound (s : State) (i : SlotId) : Prop :=
  (s.slot i).power.vbus = (s.slot i).state.powered ∧
    ((s.slot i).state = .unfitted ↔ s.straps.fitted i = false) ∧
    (s.straps.fitted i = true → ((s.slot i).state = .inhibited ↔ (s.drawerOpen i || (s.slot i).disabled) = true))

def State.slotStatesSound (s : State) : Prop := ∀ i, s.slotStateSound i

/-- The profile fields stay in their ranges (R21). -/
def Profile.inRange (p : Profile) (ceiling : Nat) : Prop :=
  p.rateCeiling ≤ ceiling ∧ 1000 ≤ p.bootAllow ∧ p.bootAllow ≤ 120000 ∧ p.keyPress ≤ 10000 ∧ 100 ≤ p.recoverOff ∧
    p.recoverOff ≤ 10000 ∧ 100 ≤ p.currentLimit ∧ p.currentLimit ≤ 3000 ∧ 1000 ≤ p.tripBudget ∧
    p.tripBudget ≤ 200000 ∧ p.inrushBlank ≤ 255

/-- The fields of a slot stay in the ranges the spec's tables give them: the link record (R30, R45), the rates below the
strap CEILING (R43, R191), the recovery count (R13), the queue (R76), the power block's record (R143, R147, R149), the
ring (R159), a bridge's output buffer (R163), a stream's credit (R138), the further-faults count (R19), the translation
table (R65) and the profile (R21). -/
def Slot.inRange (x : Slot) (ceiling : Nat) : Prop :=
  x.link.score ≤ Config.scoreMax ∧ x.link.rate ≤ ceiling ∧ (∀ e, x.link.exchange = some e → e.target ≤ ceiling) ∧
    (∀ v, x.pendingCeiling = some v → v ≤ ceiling) ∧ x.recoveryAttempts ≤ 2 ∧
    x.queue.length ≤ Config.queueDepth ∧ x.power.history.length ≤ Config.historyLimit ∧
    (∀ v ∈ x.power.history, v ≤ Config.fullScale) ∧ x.power.accumulator ≤ x.profile.tripBudget ∧
    (x.power.vbus = false → x.power.accumulator = 0) ∧ x.ring.length ≤ Config.ringBytes ∧
    (∀ b, x.bridge = some b → b.output.length ≤ Config.ringBytes) ∧
    (∀ r, x.stream = some r → r.credit ≤ Config.creditLimit) ∧
    (∀ r, x.faultRecord = some r → r.further ≤ Config.furtherLimit) ∧ x.translation.length ≤ 8 ∧
    x.profile.inRange ceiling

def State.slotsInRange (s : State) : Prop := ∀ i, (s.slot i).inRange s.straps.ceiling

/-- The counts of an entry of the Operation Table are those of its members, each slot has one member, and the members of a
REPORTING entry are all final (R68, R69, R72, R92). -/
def Operation.sound (o : Operation) : Prop :=
  o.passed = (o.members.filter fun m => m.status.isPassed).length ∧
    o.failed = (o.members.filter fun m => m.status.isFailed).length ∧
    o.final = (o.members.filter fun m => m.status.isFinal).length ∧ (o.members.map (·.slot)).Nodup ∧
    (o.phase ≠ .live → ∀ m ∈ o.members, m.status.isFinal = true)

/-- The Operation Table: at most 16 entries, no two with the same tag (R68), their reservations within the gather memory
(R73), and in the uplink one gather report for each REPORTING entry, as it was built when the operation completed (R92,
R95). -/
def State.operationsSound (s : State) : Prop :=
  s.ops.length ≤ Config.operationEntries ∧ (s.ops.map (·.tag)).Nodup ∧
    (s.ops.map (·.reservation)).sum ≤ Config.gatherBytes ∧ (∀ o ∈ s.ops, o.sound) ∧
    (s.uplink.gathers.map (·.tag)).Nodup ∧
    (∀ g ∈ s.uplink.gathers, ∃ o ∈ s.ops, ∃ v c, o.phase = .reporting v c ∧ g = o.report v c) ∧
    ∀ o ∈ s.ops, o.phase ≠ .live → o.tag ∈ s.uplink.gathers.map (·.tag)

/-- The states in which a slot holds an in-flight record (R77). -/
def SlotState.working : SlotState → Bool
  | .busy | .aborting | .streaming => true
  | _ => false

/-- The work of a slot stands with its state: an in-flight record exactly in BUSY, ABORTING and STREAMING (R77), a stream's
fields in STREAMING and, with the reference released, in ABORTING (R135), a boot exchange in BOOTING and a step-down in
READY or STREAMING (R43, R44), a bridge record exactly in BRIDGE (R163). -/
def Slot.workSound (x : Slot) : Prop :=
  x.inFlight.isSome = x.state.working ∧ (x.state = .streaming → x.stream.isSome = true) ∧
    (∀ r, x.stream = some r → x.state = .streaming ∨ (x.state = .aborting ∧ r.referenceHeld = false)) ∧
    (∀ e, x.link.exchange = some e → e.purpose = .boot → x.state = .booting) ∧
    (∀ e, x.link.exchange = some e → e.purpose = .stepDown → x.state = .ready ∨ x.state = .streaming) ∧
    x.bridge.isSome = (x.state == .bridge)

def State.workSound (s : State) : Prop := ∀ i, (s.slot i).workSound

/-- Every slot: its state and switch, the ranges of its fields, its work. -/
def State.slotsSound (s : State) : Prop := s.slotStatesSound ∧ s.slotsInRange ∧ s.workSound

/-- How many slots hold a reference to an image (R141). -/
def State.holders (s : State) (k : ImageId) : Nat := (s.slots.toList.filter fun x => x.holds k).length

/-- Every image's reference count is the number of streams that hold it, and only an image in READY or DAMAGED is held
(R141). -/
def State.referencesSound (s : State) : Prop :=
  ∀ k, (s.image k).fields.references = s.holders k ∧
    (s.holders k ≠ 0 → (s.image k).state = .ready ∨ (s.image k).state = .damaged)

/-- The windows of the images that are not FREE lie in the store, each at a multiple of its own size, with the high mark
within the window, and no two share a unit (R120, R126). -/
def State.windowsSound (s : State) : Prop :=
  (∀ k, (s.image k).fields.base % (s.image k).fields.size.units = 0 ∧
      (s.image k).fields.base + (s.image k).units ≤ Config.storeUnits ∧
      (s.image k).fields.highMark ≤ (s.image k).fields.size.bytes) ∧
    ∀ k l, k ≠ l → (s.image k).units ≠ 0 → (s.image l).units ≠ 0 →
      (s.image k).fields.base + (s.image k).units ≤ (s.image l).fields.base ∨
        (s.image l).fields.base + (s.image l).units ≤ (s.image k).fields.base

/-- The job list holds one clearing for each CLEARING image and one verification for each VERIFYING image, and nothing else
(R124); the job at its head has done no more blocks than it has (R125, R129); an IMAGE_WRITE in progress has bytes to write,
all within the window of an image in LOADING or, after an uncorrectable word, DAMAGED (R126, R127), and none is in progress
while a RESTART holds the intake (R186, R193). -/
def State.jobsSound (s : State) : Prop :=
  s.jobs.Nodup ∧ s.engineBlocks ≤ (s.jobs.head?.map s.jobBlocks).getD 0 ∧
    (∀ k, (Job.clear k ∈ s.jobs ↔ (s.image k).state = .clearing) ∧
      (Job.verify k ∈ s.jobs ↔ (s.image k).state = .verifying)) ∧
    ∀ tag k offset data discard, s.port.inProgress = some (.imageWrite tag k offset data discard) →
      data ≠ [] ∧ offset + data.length ≤ (s.image k).fields.size.bytes ∧
        ((s.image k).state = .loading ∨ (s.image k).state = .damaged) ∧ s.port.intakeHold = false

/-- The image store's list of cells and its list of bits in error are in canonical form (log 7, log 8). -/
def State.storeSound (s : State) : Prop := Memory.wf s.store = true ∧ Memory.codesWf s.lostBits = true

/-- The Image Table and the image store: windows, reference counts, jobs and the write in progress, the bytes. -/
def State.imagesSound (s : State) : Prop := s.windowsSound ∧ s.referencesSound ∧ s.jobsSound ∧ s.storeSound

/-- The uplink: at most eight receipts, a place kept for the receipt of a request in progress (R186), one notice for each slot
whose notice-waiting flag is set and none for the others (R178), one BRIDGE_OUT for each slot whose message waiting field
is set and none for the others (R168, R169). -/
def State.uplinkSound (s : State) : Prop :=
  s.uplink.receipts.length + s.port.inProgress.toList.length ≤ Config.receiptLimit ∧ s.uplink.notices.Nodup ∧
    (∀ i, i ∈ s.uplink.notices ↔ (s.slot i).noticeWaiting = true) ∧ (s.uplink.bridgeOuts.map (·.slot)).Nodup ∧
    (∀ i, i ∈ s.uplink.bridgeOuts.map (·.slot) ↔ (s.slot i).messageWaiting = true)

/-- A state of a safe run. -/
def State.sound (s : State) : Prop :=
  s.slotsSound ∧ s.operationsSound ∧ s.imagesSound ∧ s.uplinkSound

end Sys2Proof.Machine
end

