-- ==== Sys2Proof/Certificates/Slice0/Obligations.lean ====
section
/-! DEFINITION. The statements for the provers. Where a docstring names a log entry, that clause is the model's choice and
not a rule of the spec. -/

section Statements

open Sys2Proof Sys2Proof.Machine

/-! ### The machine and its resets -/

/-- The command at the front of the queue runs, on the state with the rest of the queue (the model's form of a block,
log 1). -/
def Obligations.StepRunsFrontCommand : Prop :=
  ∀ (c : Instr) (rest : List Instr) (s : State), s.pending = c :: rest → step s = exec c { s with pending := rest }

/-- With no command waiting, one step is one millisecond of the time base (R100), after which every powered slot owes a
current sample (R147); while an expiry or a sample is still to be taken, the count stands (log 3). A DIRECTIVE or
BRIDGE_ENTER on the line is a millisecond nearer to its last byte, and has ended when none is left (log 10). -/
def Obligations.IdleStepMovesTheTimeBase : Prop :=
  ∀ s : State, s.pending = [] →
    (s.owes = true → step s = .next s) ∧
      (s.owes = false →
        ∃ t, step s = .next t ∧ t.now = s.now + 1 ∧ keepsBut [.time, .slots] s t ∧
          ∀ i, t.slot i =
            let x : Slot :=
              if (s.slot i).power.vbus then { s.slot i with power := { (s.slot i).power with sampleDue := true } }
              else s.slot i
            if x.tx.left = 0 then x
            else if x.tx.left = 1 then x.frameEnded
            else { x with tx := { x.tx with left := x.tx.left - 1 } })

/-- The values at reset (R29, R30, R21, R56, R98, R119, R143, R159, R175, R194), with both straps high, both drawers closed
and no handset seated (log 5): every slot VACANT with VBUS off, the link at rest with score 48, the default profile, empty
tables, a notice mask with every kind enabled. The engine's flag is the model's own (log 9). -/
def Obligations.ResetHoldsTheSpecValues : Prop :=
  let s := State.reset
  s.now = 0 ∧ s.pending = [] ∧ s.port = ⟨false, none, false⟩ ∧ s.uplink = ⟨[], [], [], [], none, none, []⟩ ∧
    (∀ n, 1 ≤ n → n ≤ 31 → s.group n = none) ∧ s.group 0 = some ⟨0xFFFFFF, .all, 10000, 64⟩ ∧ s.fixture = none ∧
    s.ops = [] ∧ s.freeGather = 65536 ∧ s.jobs = [] ∧ s.granted = none ∧ s.engineAlone = false ∧ s.noticeMask = 0xFF ∧
    (∀ k, (s.image k).state = .free ∧ (s.image k).generation = 0 ∧ (s.image k).fields.references = 0) ∧
    ∀ i, (s.slot i).state = .vacant ∧ (s.slot i).present = false ∧ (s.slot i).disabled = false ∧
      (s.slot i).lastNestCode = none ∧ (s.slot i).queue = [] ∧ (s.slot i).inFlight = none ∧
      (s.slot i).restartCause = .none ∧ (s.slot i).recoveryAttempts = 0 ∧ (s.slot i).agent = none ∧
      (s.slot i).faultRecord = none ∧ (s.slot i).pendingCeiling = none ∧ (s.slot i).translation = [] ∧
      (s.slot i).link = ⟨0, 0, 0, 48, true, false, none, .hunting⟩ ∧
      (s.slot i).profile = ⟨4, 30000, 1500, true, false, 2000, 1500, 20000, 50⟩ ∧ (s.slot i).power.vbus = false ∧
      (s.slot i).power.history = [] ∧ (s.slot i).power.accumulator = 0 ∧ (s.slot i).power.trip = .clear ∧
      (s.slot i).power.key = none ∧ (s.slot i).ring = [] ∧ (s.slot i).wrapped = false ∧ (s.slot i).bridge = none ∧
      (s.slot i).pendingEvents = 0 ∧ (s.slot i).noticeWaiting = false

/-- The reset state meets every condition on a state of a run (the pins as log 5 chooses them). -/
def Obligations.ResetIsSound : Prop := State.reset.sound

/-- A power-on reset latches the straps, sets the count to 0, empties every table, queue and job list and every uplink class
but the notices, and takes the drawer inputs as they read (R29, R119, R191). Slots 12 to 23 of a part with one bank are
UNFITTED; a slot whose drawer reads open is INHIBITED, with the event pending and its notice queued; every other fitted slot
is VACANT, and its debounce timer runs when its contact is closed (R3, R7). That the strap levels are operands is log 6, and
that interlock B is taken as closed on a part with one bank is log 22; that the notices are in ascending slot order is
log 30; the engine's flag is the model's own (log 9). -/
def Obligations.PowerOnResetPlacesEverySlot : Prop :=
  ∀ (s : State) (banksHigh ceilingHigh : Bool),
    ∃ t, exec (.powerOnReset banksHigh ceilingHigh) s = .next t ∧ t.pending = s.pending ∧ t.now = 0 ∧
      t.straps = ⟨banksHigh, ceilingHigh⟩ ∧ t.port = ⟨false, none, false⟩ ∧ t.groups = Vector.replicate 31 none ∧
      t.fixture = none ∧ t.ops = [] ∧ t.images = Vector.replicate 8 ⟨.free, 0, ImageFields.absent⟩ ∧ t.jobs = [] ∧ t.engineBlocks = 0 ∧
      t.arbiterPointer = 0 ∧ t.granted = none ∧ t.engineAlone = false ∧ t.noticeMask = 0xFF ∧
      t.interlockA = ⟨s.interlockA.input, s.interlockA.input, none⟩ ∧
      t.interlockB = ⟨s.interlockB.input, banksHigh && s.interlockB.input, none⟩ ∧
      t.uplink =
        { Uplink.empty with
          notices := (List.finRange 24).filter fun i =>
            (banksHigh || i.val < 12) && if i.val < 12 then s.interlockA.input else s.interlockB.input } ∧
      ∀ i,
        let isFitted := banksHigh || decide (i.val < 12)
        let isOpen := if i.val < 12 then s.interlockA.input else s.interlockB.input
        t.slot i =
          { Slot.initial (if !isFitted then .unfitted else if isOpen then .inhibited else .vacant)
              (if ceilingHigh then 4 else 3) (s.slot i).contact (s.slot i).nestLines with
            debounce := if isFitted && (s.slot i).contact then some ⟨0, 50⟩ else none
            pendingEvents := if isFitted && isOpen then 0x80 else 0
            noticeWaiting := isFitted && isOpen }

/-! ### The control port and the uplink -/

/-- A request offered while a request is in progress, while the intake hold is set, with 8 receipts waiting, or on a port
that is not CONFIGURED is not taken and changes nothing (R184, R186; that the sender offers it again is log 2). -/
def Obligations.RequestsWaitForIntake : Prop :=
  ∀ (c : Instr) (s : State), isRequest c = true →
    (s.port.configured = false ∨ s.port.inProgress ≠ none ∨ s.port.intakeHold = true ∨
      8 ≤ s.uplink.receipts.length) →
    exec c s = .next s

/-- A request whose body has the wrong shape gets a MALFORMED receipt with its tag and kind, detail 0 and no reply data, and
nothing else changes (R196, R187). The five checks of a transfer, in their order, and the receipt of the first that fails
(R185): MALFORMED with tag 0 and kind 0 below 6 bytes; MALFORMED above 8,192 bytes; MALFORMED for a body length that differs
from the transfer's less 6; UNKNOWN_KIND for a kind that is none of the 25; MALFORMED for a flags byte other than 0. While a
notice is on the pipe the receipt waits for it (R188), which the model holds as log 11 says. -/
def Obligations.MalformedRequestsGetTheirReceipt : Prop :=
  (∀ (c : Instr) (s : State) (tag : Tag) (kind : Byte), s.intakeOpen = true → misshapenBody c = some (tag, kind) →
     ∃ t, exec c s = .next t ∧ onlyAnswers s t ⟨tag, kind, .malformed, 0, .none⟩) ∧
  (∀ (transfer : List Byte) (s : State), s.intakeOpen = true →
     (transfer.length < 6 ∨ 8192 < transfer.length ∨ fieldAt transfer 4 2 ≠ transfer.length - 6 ∨
       (byteAt transfer 0).toNat < 1 ∨ 25 < (byteAt transfer 0).toNat ∨ byteAt transfer 1 ≠ 0) →
     ∃ t, exec (.malformedTransfer transfer) s = .next t ∧
       onlyAnswers s t
         (if transfer.length < 6 then ⟨0, 0, .malformed, 0, .none⟩
           else if 8192 < transfer.length then ⟨halfAt transfer 2, byteAt transfer 0, .malformed, 0, .none⟩
           else if fieldAt transfer 4 2 ≠ transfer.length - 6 then
             ⟨halfAt transfer 2, byteAt transfer 0, .malformed, 0, .none⟩
           else if (byteAt transfer 0).toNat < 1 ∨ 25 < (byteAt transfer 0).toNat then
             ⟨halfAt transfer 2, byteAt transfer 0, .unknownKind, 0, .none⟩
           else ⟨halfAt transfer 2, byteAt transfer 0, .malformed, 0, .none⟩))

/-- IDENTIFY changes no state but for its receipt, whose reply data are the part's codes, the latched straps, the number of
fitted slots, the capacities and the count (R192), in the layout of 10.6.3. While a notice is on the pipe the receipt waits
for it (R188), which the model holds as log 11 says. -/
def Obligations.IdentifyReportsThePart : Prop :=
  ∀ (tag : Tag) (s : State), s.intakeOpen = true →
    ∃ t reply, exec (.identify tag (.shaped ())) s = .next t ∧ onlyAnswers s t ⟨tag, 0x01, .accepted, 0, reply⟩ ∧
      reply.layout =
        [0x7E, 0x1A, 0x00, 0x24, 3, if s.straps.banksTwo then 2 else 1, if s.straps.ceilingFour then 4 else 3,
          if s.straps.banksTwo then 24 else 12, 16, 0x00, 0x00, 0x01, 0x00, 0x00, 0x00, 0x80, 0x00, 8, 32, 4, 0x00,
          0x20] ++ toLittleEndian 4 s.now.toNat

/-- A RESTART with an empty body sets the intake hold and queues its ACCEPTED receipt; nothing else changes until that
receipt has been sent (R193). When a RESTART's receipt has been sent, its effects are made (R193): the operations, groups
1 to 31, the fixture table, the job list and the other uplink classes are emptied, READY and DAMAGED images are kept with
no references and the others become FREE with their generation (R119), every slot takes its power-on values and is placed
by its drawer (R29), a seated slot in a closed drawer is powered up by autostart with restart cause HOST and raises ATTACH
(R182), and the intake hold is cleared. A debounce timer starts anew while the contact differs from the present flag (R3),
and a settling timer while an interlock's input differs from its level (R7). The straps, the time base, the store with its
lost bits (log 8) and the interlock levels stay, and a stream's read that was granted is done to its end (R133): that
these go on running is log 21. The engine's flag, the model's own, is clear (log 9). The notices follow the placement and
then the presence evaluation (R29, R182); that each goes through the slots in ascending order is log 30. A receipt is also
on the pipe when a notice has ended before it (log 11). -/
def Obligations.RestartReturnsToPowerOnValues : Prop :=
  (∀ (tag : Tag) (s : State), s.intakeOpen = true →
     ∃ t, exec (.restart tag (.shaped ())) s = .next t ∧ receiptJoins s t ⟨tag, 0x02, .accepted, 0, .none⟩ ∧
       t.port = { s.port with intakeHold := true } ∧ keepsBut [.port, .uplink] s t) ∧
  (∀ (s : State) (r : Receipt) (rest : List Receipt), s.uplink.sends .receipt = true → s.uplink.receipts = r :: rest →
     r.kind = 0x02 → r.result = .accepted → s.port.intakeHold = true →
     ∃ t, exec .receiptSent s = .next t ∧ keepsBut [.port, .uplink, .groups, .fixture, .operations, .images, .jobs, .arbiter,
         .interlocks, .mask, .slots] s t ∧
       t.port = { s.port with intakeHold := false } ∧ t.ops = [] ∧ t.groups = Vector.replicate 31 none ∧
       t.fixture = none ∧ t.jobs = [] ∧ t.engineBlocks = 0 ∧ t.engineAlone = false ∧ t.arbiterPointer = 0 ∧
       t.noticeMask = 0xFF ∧
       t.granted =
         (match s.granted with
         | some (.reader i k block) => some (.reader i k block)
         | _ => none) ∧
       (let settling := fun l : Interlock => if l.input = l.taken then none else some (⟨s.now, 10⟩ : Timer)
       t.interlockA = { s.interlockA with settling := settling s.interlockA } ∧
         t.interlockB = { s.interlockB with settling := if s.straps.banksTwo then settling s.interlockB else none }) ∧
       t.uplink.receipts = rest ∧ t.uplink.gathers = [] ∧ t.uplink.bridgeOuts = [] ∧
       t.uplink.notices =
         (List.finRange 24).filter (fun i => s.straps.fitted i && s.drawerOpen i) ++
           (List.finRange 24).filter (fun i => s.straps.fitted i && !s.drawerOpen i && (s.slot i).present) ∧
       (∀ k, t.image k =
         if (s.image k).state = .ready ∨ (s.image k).state = .damaged then
           { s.image k with fields := { (s.image k).fields with references := 0 } }
         else ⟨.free, (s.image k).generation, ImageFields.absent⟩) ∧
       ∀ i,
         let ceiling := if s.straps.ceilingFour then 4 else 3
         let base := fun st => Slot.initial st ceiling (s.slot i).contact (s.slot i).nestLines
         let debounce : Option Timer := if (s.slot i).contact = (s.slot i).present then none else some ⟨s.now, 50⟩
         t.slot i =
           if s.straps.fitted i = false then base .unfitted
           else if s.drawerOpen i then
             { base .inhibited with
               present := (s.slot i).present, debounce := debounce, noticeWaiting := true
               pendingEvents := if (s.slot i).present then 0x81 else 0x80 }
           else if (s.slot i).present then
             { base .powering with
               present := true, debounce := debounce, noticeWaiting := true, pendingEvents := 0x01
               restartCause := .host, settle := some ⟨s.now, 50⟩
               power :=
                 { PowerRecord.initial with
                   vbus := true, periodStart := some s.now, blanking := some ⟨s.now, 50⟩, blankLength := 50, period := 1 } }
           else { base .vacant with debounce := debounce })

/-- What the uplink arbiter does when a receipt or a gather report has been sent, and when the port becomes CONFIGURED
(R184, R186, R188, R86): the number of waiting receipts falls by 1; the operation's entry is freed with its reservation; the
next message of the first class that holds one begins. A notice on the pipe is sent to its end: a message queued meanwhile
does not begin, and its class is one of those that may be chosen when the notice ends (how the model holds this is log 11).
-/
def Obligations.UplinkSendsTheFirstClass : Prop :=
  (∀ (s : State) (r : Receipt) (rest : List Receipt), s.uplink.sends .receipt = true → s.uplink.receipts = r :: rest →
    ¬ (r.kind = 0x02 ∧ r.result = .accepted ∧ s.port.intakeHold = true) →
    ∃ t, exec .receiptSent s = .next t ∧ keepsBut [.uplink] s t ∧
      t.uplink =
        (let u : Uplink := { s.uplink with receipts := rest, noticeOnPipe := none, turns := [] }
        { u with sending := if s.port.configured then u.firstClass else none })) ∧
  (∀ (s : State) (g : GatherReport) (rest : List GatherReport), s.uplink.sends .gather = true →
    s.uplink.gathers = g :: rest →
    ∃ t, exec .gatherReportSent s = .next t ∧ keepsBut [.uplink, .operations] s t ∧
      t.ops = s.ops.filter (fun o => o.tag != g.tag) ∧
      t.uplink =
        (let u : Uplink := { s.uplink with gathers := rest, noticeOnPipe := none, turns := [] }
        { u with sending := if s.port.configured then u.firstClass else none })) ∧
  (∀ s : State, s.uplink.sending = none →
    ∃ t, exec .hostPortConfigured s = .next t ∧ keepsBut [.port, .uplink] s t ∧
      t.port = { s.port with configured := true } ∧
      t.uplink =
        match s.uplink.firstClass with
        | none => s.uplink
        | some c =>
          if s.uplink.noticeOnPipe = none then { s.uplink with sending := some c }
          else if c ∈ s.uplink.turns then s.uplink
          else { s.uplink with turns := s.uplink.turns ++ [c] }) ∧
  ∀ (u : Uplink) (c : UplinkClass),
    u.sends c = true ↔ u.sending = some c ∨ (u.sending = none ∧ u.noticeOnPipe ≠ none ∧ c ∈ u.turns)

/-- When a BRIDGE_OUT has been sent, its slot's message waiting field is cleared, and a slot still in BRIDGE builds its next
message: at once from a ring of 256 bytes or more, else after the gathering timer when the ring holds a byte (R168,
R169). A BRIDGE_OUT is also on the pipe when a notice has ended before it (log 11). -/
def Obligations.BridgeOutSentBuildsTheNext : Prop :=
  ∀ (s : State) (m : BridgeOut) (rest : List BridgeOut), s.uplink.sends .bridgeOut = true →
    s.uplink.bridgeOuts = m :: rest →
    ∃ t, exec .bridgeOutSent s = .next t ∧ slotsBut (· = m.slot) s t ∧ keepsBut [.uplink, .slots] s t ∧
      t.uplink.receipts = s.uplink.receipts ∧ t.uplink.gathers = s.uplink.gathers ∧
      t.uplink.notices = s.uplink.notices ∧
      (let x := s.slot m.slot
      if x.state = .bridge ∧ 256 ≤ x.ring.length then
        t.uplink.bridgeOuts = rest ++ [⟨m.slot, x.wrapped, x.ring.take 256⟩] ∧
          t.slot m.slot =
            { x with
              ring := x.ring.drop 256, wrapped := false, messageWaiting := true
              bridge := x.bridge.map fun b => { b with gathering := none } }
      else if x.state = .bridge ∧ x.ring ≠ [] then
        t.uplink.bridgeOuts = rest ∧
          t.slot m.slot =
            { x with
              messageWaiting := false
              bridge := x.bridge.map fun b => { b with gathering := some ⟨s.now, 2⟩ } }
      else t.uplink.bridgeOuts = rest ∧ t.slot m.slot = { x with messageWaiting := false })

/-- With the pipe free and no other class waiting, the oldest notice is begun: it carries the slot's whole pending set, the
agent-up cause and the count, or is discarded when the set is empty; the slot's notice-waiting flag is cleared and the set
stays (R179, R188). A notice that was on the pipe has ended (log 11). -/
def Obligations.NoticeCarriesThePendingSet : Prop :=
  ∀ (s : State) (i : SlotId) (rest : List SlotId), s.uplink.notices = i :: rest → s.port.configured = true →
    s.uplink.sending = none → s.uplink.receipts = [] → s.uplink.gathers = [] → s.uplink.bridgeOuts = [] →
    ∃ t, exec .noticeBegun s = .next t ∧ keepsBut [.uplink, .slots] s t ∧ slotsBut (· = i) s t ∧
      t.slot i = { s.slot i with noticeWaiting := false } ∧
      t.uplink =
        { s.uplink with
          notices := rest
          noticeOnPipe :=
            if (s.slot i).pendingEvents = 0 then none
            else some ⟨i, (s.slot i).pendingEvents, (s.slot i).agentUpCause, s.now⟩
          turns := [] }

/-- A host port detach of a CONFIGURED port empties the uplink and the Operation Table, withdraws the open members of every
LIVE entry in acceptance order, takes every bridged slot through its orderly exit, clears the notice-waiting and message
waiting fields, abandons a deferred OPEN_BRIDGE and a RESTART, and lets an IMAGE_WRITE go on without its receipt (R99, R171,
R183, R189, R190). That a frame on the line or waiting is dropped at a bridge's exit is log 19. On an UNCONFIGURED port it
has no effect (R184). -/
def Obligations.PortDetachEmptiesTheUplink : Prop :=
  ∀ s : State,
    (s.port.configured = false → exec .hostPortDetach s = .next s) ∧
      (s.port.configured = true →
        ∃ t, exec .hostPortDetach s = .next t ∧ keepsBut [.port, .uplink, .operations, .slots] s t ∧
          t.uplink = Uplink.empty ∧ t.ops = [] ∧ t.port.configured = false ∧ t.port.intakeHold = false ∧
          t.port.inProgress =
            (match s.port.inProgress with
              | some (.imageWrite tag k offset data _) => some (.imageWrite tag k offset data true)
              | _ => none) ∧
          ∀ i,
            let withdrawn :=
              (s.ops.filter fun o => o.phase = .live).flatMap fun o =>
                (o.openSlots.filter (· = i)).map fun _ => SlotRequest.withdraw o.tag
            let x : Slot :=
              { s.slot i with
                noticeWaiting := false, messageWaiting := false, requests := (s.slot i).requests ++ withdrawn }
            t.slot i =
              if x.state = .bridge then
                { x with
                  state := .booting, bridge := none, link := LinkState.rest, tx := ⟨none, [], some ⟨s.now, 2⟩, 0⟩
                  allowance := some ⟨.resync, ⟨s.now, 1000⟩⟩ }
              else x)

/-! ### The slot requests -/

/-- A set that names an UNFITTED slot is refused BAD_SLOT, and nothing else changes (R2), for each request that carries a
slot set and has passed the checks that come before this one (R22, R24, R28, R57, R66, R155, R157, R180). While a notice is
on the pipe the receipt waits for it (R188), which the model holds as log 11 says. -/
def Obligations.SetsWithUnfittedSlotsAreRefused : Prop :=
  ∀ (tag : Tag) (set : SlotSet) (s : State), s.intakeOpen = true → s.straps.namesUnfitted set = true →
    (∀ p : Instr × Byte,
      p ∈ [(.powerOn tag (.shaped set), 0x04), (.powerOff tag (.shaped set), 0x04), (.cycle tag (.shaped set), 0x04),
        (.resetSlot tag (.shaped set), 0x04), (.clearFault tag (.shaped set), 0x04), (.disable tag (.shaped set), 0x04),
        (.enable tag (.shaped set), 0x04), (.querySlots tag (.shaped set), 0x05), (.measure tag (.shaped set), 0x12),
        (.readEvents tag (.shaped set), 0x18)] →
      ∃ t, exec p.1 s = .next t ∧ onlyAnswers s t ⟨tag, p.2, .badSlot, 0, .none⟩) ∧
    (∀ duration, ∃ t, exec (.pressKey tag (.shaped ⟨set, duration⟩)) s = .next t ∧
      onlyAnswers s t ⟨tag, 0x13, .badSlot, 0, .none⟩) ∧
    (∀ pairs, ∃ t, exec (.setTranslation tag (.shaped ⟨set, pairs⟩)) s = .next t ∧
      onlyAnswers s t ⟨tag, 0x08, .badSlot, 0, .none⟩) ∧
    (∀ f : ProfileFields, f.set = set → profileCodes f = true →
      ∃ t, exec (.setProfile tag (.shaped f)) s = .next t ∧ onlyAnswers s t ⟨tag, 0x03, .badSlot, 0, .none⟩) ∧
    ∀ f : GroupFields, f.members = set → f.policy.toNat ≤ 2 → 1 ≤ f.group.toNat → f.group.toNat ≤ 31 →
      ∃ t, exec (.defineGroup tag (.shaped f)) s = .next t ∧ onlyAnswers s t ⟨tag, 0x06, .badSlot, 0, .none⟩

/-- SET_PROFILE writes each present field, clamped to its range, into the profile of every slot of the set (R21, R22). A
rate_ceiling for a powered slot is held as its pending ceiling (R23). A trip_budget at or below the accumulator of a slot
whose VBUS is on sets the accumulator to it, and, with the trip clear, trips the slot with the latest sample as detail
(R153). A mask with a bit above bit 8, or a present yes/no byte above 1, is MALFORMED (R196). While a notice is on the pipe
the receipt waits for it (R188), which the model holds as log 11 says. -/
def Obligations.SetProfileWritesThePresentFields : Prop :=
  ∀ (tag : Tag) (f : ProfileFields) (s : State), s.intakeOpen = true →
    let has := fun k : Nat => f.mask.getLsbD k
    let codesHold := f.mask.toNat < 512 ∧ (has 3 = true → f.autostart.toNat ≤ 1) ∧ (has 4 = true → f.autoRecover.toNat ≤ 1)
    let ceiling := if s.straps.ceilingFour then 4 else 3
    let changed := fun (k lo hi v : Nat) => has k && clampTo lo hi v != v
    let mask :=
      maskOf
        [changed 0 0 ceiling f.rateCeiling.toNat, changed 1 1000 120000 f.bootAllow.toNat,
          changed 2 0 10000 f.keyPress.toNat, false, false, changed 5 100 10000 f.recoverOff.toNat,
          changed 6 100 3000 f.currentLimit.toNat, changed 7 1000 200000 f.tripBudget.toNat,
          changed 8 0 255 f.inrushBlank.toNat]
    (¬ codesHold → ∃ t, exec (.setProfile tag (.shaped f)) s = .next t ∧ onlyAnswers s t ⟨tag, 0x03, .malformed, 0, .none⟩) ∧
      (codesHold → s.straps.namesUnfitted f.set = false →
        ∃ t, exec (.setProfile tag (.shaped f)) s = .next t ∧
          receiptJoins s t ⟨tag, 0x03, if mask = 0 then .accepted else .clamped, mask, .none⟩ ∧
          keepsBut [.uplink, .slots] s t ∧ slotsBut (· ∈ slotsOf f.set) s t ∧
          ∀ i ∈ slotsOf f.set,
            let x := s.slot i
            let budget := if has 7 then clampTo 1000 200000 f.tripBudget.toNat else x.profile.tripBudget
            let trips := has 7 && x.power.vbus && decide (budget ≤ x.power.accumulator)
            t.slot i =
              { x with
                profile :=
                  { rateCeiling :=
                      if has 0 && !x.state.powered then clampTo 0 ceiling f.rateCeiling.toNat else x.profile.rateCeiling
                    bootAllow := if has 1 then clampTo 1000 120000 f.bootAllow.toNat else x.profile.bootAllow
                    keyPress := if has 2 then clampTo 0 10000 f.keyPress.toNat else x.profile.keyPress
                    autostart := if has 3 then f.autostart == 1 else x.profile.autostart
                    autoRecover := if has 4 then f.autoRecover == 1 else x.profile.autoRecover
                    recoverOff := if has 5 then clampTo 100 10000 f.recoverOff.toNat else x.profile.recoverOff
                    currentLimit := if has 6 then clampTo 100 3000 f.currentLimit.toNat else x.profile.currentLimit
                    tripBudget := budget
                    inrushBlank := if has 8 then clampTo 0 255 f.inrushBlank.toNat else x.profile.inrushBlank }
                pendingCeiling :=
                  if has 0 && x.state.powered then some (clampTo 0 ceiling f.rateCeiling.toNat) else x.pendingCeiling
                power :=
                  if trips then
                    { x.power with
                      accumulator := budget
                      trip := if x.power.trip = .clear then .overcurrent else x.power.trip }
                  else x.power
                faultRequests :=
                  if trips && x.power.trip == .clear then
                    x.faultRequests ++
                      [⟨.overcurrent, BitVec.ofNat 16 (x.power.history.getLast?.getD 0), x.power.period⟩]
                  else x.faultRequests })

/-- SLOT_CONTROL answers ACCEPTED with one outcome for each slot of the set, in ascending order, decided by the slot's state
(R24, R25, R26, R27): POWER_ON is allowed in OFF, POWER_OFF in the powered states, CYCLE in the powered states and OFF,
CLEAR_FAULT in FAULT, RESET_SLOT, DISABLE and ENABLE in every fitted state. A slot outside the set or in another state is
left as it was. While a notice is on the pipe the receipt waits for it (R188), which the model holds as log 11 says. That
the slots of the set act, and their notices join, in ascending order is log 30. -/
def Obligations.SlotControlDecidesByState : Prop :=
  ∀ (tag : Tag) (set : SlotSet) (s : State), s.intakeOpen = true → s.straps.namesUnfitted set = false →
    ∀ p : Instr × (SlotState → Bool),
      p ∈ [(.powerOn tag (.shaped set), fun st => st == .off), (.powerOff tag (.shaped set), SlotState.powered),
        (.cycle tag (.shaped set), fun st => st.powered || st == .off), (.clearFault tag (.shaped set), fun st => st == .fault),
        (.resetSlot tag (.shaped set), fun st => st != .unfitted), (.disable tag (.shaped set), fun st => st != .unfitted),
        (.enable tag (.shaped set), fun st => st != .unfitted)] →
      ∃ t, exec p.1 s = .next t ∧
        answersWithNotices s t
          ⟨tag, 0x04, .accepted, 0,
            .outcomes ((slotsOf set).map fun i => (i, if p.2 (s.slot i).state then .ok else .wrongState))⟩ (slotsOf set) ∧
        keepsBut [.uplink, .images, .slots] s t ∧
        slotsBut (fun i => i ∈ slotsOf set ∧ p.2 (s.slot i).state = true) s t

/-- POWER_ON moves each OFF slot of the set to POWERING with restart cause HOST, VBUS on, its settle timer and its
blanking window started (R10, R25, R144), and releases no reference. POWER_OFF stops each powered slot of the set in
OFF, and CYCLE each powered or OFF slot in RECOVERING with restart cause HOST, its off-timer and a RECOVERY event; the
members are dropped with cause POWER_OFF and stream references released (R1, R14, R25, R145, R141). -/
def Obligations.PowerActionsSwitchTheSlot : Prop :=
  (∀ (tag : Tag) (set : SlotSet) (s : State), s.intakeOpen = true → s.straps.namesUnfitted set = false →
     ∃ t, exec (.powerOn tag (.shaped set)) s = .next t ∧ keepsBut [.uplink, .slots] s t ∧
       ∀ i ∈ slotsOf set, (s.slot i).state = .off →
         t.slot i = Slot.poweredUp { s.slot i with restartCause := .host } s.now) ∧
  (∀ (tag : Tag) (set : SlotSet) (s : State), s.intakeOpen = true → s.straps.namesUnfitted set = false →
     (∃ t, exec (.powerOff tag (.shaped set)) s = .next t ∧
       releasesReferences s t (fun i => decide (i ∈ slotsOf set) && (s.slot i).state.powered) ∧
       ∀ i ∈ slotsOf set, (s.slot i).state.powered = true → t.slot i = (s.slot i).stopped .powerOff .off) ∧
     ∃ t, exec (.cycle tag (.shaped set)) s = .next t ∧
       releasesReferences s t
         (fun i => decide (i ∈ slotsOf set) && ((s.slot i).state.powered || (s.slot i).state == .off)) ∧
       ∀ i ∈ slotsOf set, (s.slot i).state.powered = true ∨ (s.slot i).state = .off →
         t.slot i =
           Slot.raised
             { (s.slot i).stopped .powerOff .recovering with
               restartCause := .host, offTimer := some ⟨s.now, (s.slot i).profile.recoverOff⟩ } .recovery s.noticeMask)

/-- RESET_SLOT stops each fitted slot of the set with drop cause SLOT_RESET, empties its ring, sets its recovery attempt
count to 0 and its debounce timer back, and leaves it in FAULT, INHIBITED, OFF or VACANT by its state and present flag
(R26, R3). The fault record, the disable flag, the restart cause, the agent identity, the nest code and the translation
table stay. CLEAR_FAULT on a slot in FAULT clears its record and moves it to VACANT, or, seated, checks its nest: to OFF
when the check passes or no fixture table is loaded, else it stays in FAULT with a new NEST_CODE record and a FAULT
event (R18, R27, R64). -/
def Obligations.ResetSlotAndClearFault : Prop :=
  (∀ (tag : Tag) (set : SlotSet) (s : State), s.intakeOpen = true → s.straps.namesUnfitted set = false →
     ∃ t, exec (.resetSlot tag (.shaped set)) s = .next t ∧
       releasesReferences s t (fun i => decide (i ∈ slotsOf set) && (s.slot i).state != .unfitted) ∧
       ∀ i ∈ slotsOf set, (s.slot i).state ≠ .unfitted →
         t.slot i =
           { (s.slot i).stopped .slotReset
               (if (s.slot i).state = .fault then .fault
                 else if (s.slot i).state = .inhibited then .inhibited
                 else if (s.slot i).present then .off
                 else .vacant) with
             ring := []
             wrapped := false
             recoveryAttempts := 0
             debounce := if (s.slot i).contact = (s.slot i).present then none else some ⟨s.now, 50⟩ }) ∧
  (∀ (tag : Tag) (set : SlotSet) (s : State), s.intakeOpen = true → s.straps.namesUnfitted set = false →
     ∃ t, exec (.clearFault tag (.shaped set)) s = .next t ∧ keepsBut [.uplink, .slots] s t ∧
       ∀ i ∈ slotsOf set, (s.slot i).state = .fault →
         let x := s.slot i
         let expected := s.expectedCode i
         t.slot i =
           if x.present = false then { x with faultRecord := none, state := .vacant }
           else
             match x.nestFails expected with
             | some e =>
               Slot.raised { x.nestRead expected with faultRecord := some ⟨.nestCode, s.now, e ++ x.nestLines, 0⟩ } .fault
                 s.noticeMask
             | none => { x.nestRead expected with faultRecord := none, state := .off })

/-- DISABLE sets the host disable flag and inhibits a slot that is not INHIBITED with drop cause DISABLED; ENABLE clears the
flag, and an INHIBITED slot whose drawer is closed leaves INHIBITED (R8, R9, R27). -/
def Obligations.DisableAndEnableMoveTheInhibit : Prop :=
  ∀ (tag : Tag) (set : SlotSet) (s : State), s.intakeOpen = true → s.straps.namesUnfitted set = false →
    (∃ t, exec (.disable tag (.shaped set)) s = .next t ∧
      releasesReferences s t
        (fun i => decide (i ∈ slotsOf set) && ((s.slot i).state != .unfitted && (s.slot i).state != .inhibited)) ∧
      ∀ i ∈ slotsOf set, (s.slot i).state ≠ .unfitted →
        t.slot i =
          if (s.slot i).state = .inhibited then { s.slot i with disabled := true }
          else Slot.raised ({ s.slot i with disabled := true }.stopped .disabled .inhibited) .inhibit s.noticeMask) ∧
    ∃ t, exec (.enable tag (.shaped set)) s = .next t ∧ keepsBut [.uplink, .slots] s t ∧
      ∀ i ∈ slotsOf set, (s.slot i).state ≠ .unfitted →
        t.slot i =
          if (s.slot i).state = .inhibited ∧ s.drawerOpen i = false then
            { s.slot i with disabled := false }.uninhibited (s.expectedCode i) s.now s.noticeMask
          else { s.slot i with disabled := false }

/-- The four queries change no state but for their receipts, which carry the slot records (R28), the measurement records
(R157, R158), the summaries with the free gather memory (R94) and the image records with the free units (R131). While a
notice is on the pipe the receipt waits for it (R188), which the model holds as log 11 says. -/
def Obligations.QueriesReportAndChangeNothing : Prop :=
  ∀ (tag : Tag) (set : SlotSet) (s : State), s.intakeOpen = true →
    (s.straps.namesUnfitted set = false →
      (∃ t, exec (.querySlots tag (.shaped set)) s = .next t ∧
        onlyAnswers s t
          ⟨tag, 0x05, .accepted, 0,
            .slots ((slotsOf set).map fun i =>
              let x := s.slot i
              { slot := i, state := x.state, present := x.present, disabled := x.disabled, interlockOpen := s.drawerOpen i,
                lastNestCode := x.lastNestCode, rate := x.link.rate, score := x.link.score, queueDepth := x.queue.length,
                inFlight :=
                  match x.inFlight with
                  | none => .none
                  | some ⟨none, _, _⟩ => .orphan
                  | some ⟨some t, _, .directive⟩ => .directive t
                  | some ⟨some t, _, .stream _⟩ => .stream t
                restartCause := x.restartCause, recoveryAttempts := x.recoveryAttempts, agent := x.agent,
                faultRecord := x.faultRecord, pendingCeiling := x.pendingCeiling, profile := x.profile })⟩) ∧
      ∃ t, exec (.measure tag (.shaped set)) s = .next t ∧
        onlyAnswers s t
          ⟨tag, 0x12, .accepted, 0,
            .measurements ((slotsOf set).map fun i =>
              let p := (s.slot i).power
              { slot := i, vbus := p.vbus, blanking := p.blanking.isSome,
                keyRemaining := p.key.map fun k => k.length - elapsed s.now k, trip := p.trip,
                sampleCount := p.history.length, latest := p.history.getLast?.getD 0,
                mean := if p.history = [] then 0 else p.history.sum / p.history.length, accumulator := p.accumulator })⟩) ∧
    (∃ t, exec (.queryOperations tag (.shaped ())) s = .next t ∧
      onlyAnswers s t
        ⟨tag, 0x0C, .accepted, 0,
          .operations (65536 - (s.ops.map (·.reservation)).sum)
            (s.ops.map fun o =>
              { tag := o.tag
                isPush := match o.work with
                  | .push .. => true
                  | .directive _ => false
                reporting := o.phase != .live, members := o.members.length, passed := o.passed, failed := o.failed,
                final := o.final })⟩) ∧
    ∃ t, exec (.imageQuery tag (.shaped ())) s = .next t ∧
      onlyAnswers s t
        ⟨tag, 0x11, .accepted, 0,
          .images (32 - (s.images.toList.map fun x => if x.state = .free then 0 else x.fields.size.units).sum)
            s.images.toList⟩

/-- PRESS_KEY clamps its duration to 10,000 ms and answers with one outcome for each slot of the set: a slot whose VBUS is on
has its key pressed for the duration, or released with duration 0; any other slot is left as it was (R154, R155). That an
empty set with a duration above 10,000 answers CLAMPED is log 34. While a notice is on the pipe the receipt waits for it
(R188), which the model holds as log 11 says. -/
def Obligations.PressKeyActsOnPoweredSlots : Prop :=
  ∀ (tag : Tag) (set : SlotSet) (duration : Half) (s : State), s.intakeOpen = true → s.straps.namesUnfitted set = false →
    ∃ t, exec (.pressKey tag (.shaped ⟨set, duration⟩)) s = .next t ∧
      receiptJoins s t
        ⟨tag, 0x13, if 10000 < duration.toNat then .clamped else .accepted, if 10000 < duration.toNat then 1 else 0,
          .outcomes ((slotsOf set).map fun i => (i, if (s.slot i).power.vbus then .ok else .wrongState))⟩ ∧
      keepsBut [.uplink, .slots] s t ∧
      ∀ i,
        t.slot i =
          if i ∈ slotsOf set ∧ (s.slot i).power.vbus = true then
            { s.slot i with
              power :=
                { (s.slot i).power with
                  key := if duration = 0 then none else some ⟨s.now, min duration.toNat 10000⟩ } }
          else s.slot i

/-! ### Events and tables -/

/-- READ_EVENTS answers with the pending set and the agent-up cause of each slot of the set, in ascending order, and clears
them; the notice-waiting flags, the waiting notices and the mask stay (R180). SET_NOTICE_MASK answers with the old mask and
stores the new one; each fitted slot that holds a newly enabled kind pending and for which no notice waits receives one. A
mask with a bit above bit 7 is MALFORMED (R181). While a notice is on the pipe the receipt waits for it (R188), which the
model holds as log 11 says. -/
def Obligations.EventsAreReadAndMasked : Prop :=
  (∀ (tag : Tag) (set : SlotSet) (s : State), s.intakeOpen = true → s.straps.namesUnfitted set = false →
     ∃ t, exec (.readEvents tag (.shaped set)) s = .next t ∧
       receiptJoins s t
         ⟨tag, 0x18, .accepted, 0,
           .events ((slotsOf set).map fun i => ⟨i, (s.slot i).pendingEvents, (s.slot i).agentUpCause⟩)⟩ ∧
       keepsBut [.uplink, .slots] s t ∧
       ∀ i,
         t.slot i =
           if i ∈ slotsOf set then { s.slot i with pendingEvents := 0, agentUpCause := none } else s.slot i) ∧
  (∀ (tag : Tag) (m : Half) (s : State), s.intakeOpen = true →
     (256 ≤ m.toNat →
       ∃ t, exec (.setNoticeMask tag (.shaped m)) s = .next t ∧ onlyAnswers s t ⟨tag, 0x19, .malformed, 0, .none⟩) ∧
     (m.toNat < 256 →
       ∃ t, exec (.setNoticeMask tag (.shaped m)) s = .next t ∧
         answersWithNotices s t ⟨tag, 0x19, .accepted, 0, .mask s.noticeMask⟩ (slotsOf s.straps.fittedSet) ∧
         keepsBut [.uplink, .mask, .slots] s t ∧ t.noticeMask = m.setWidth 8 ∧
         ∀ i,
           t.slot i =
             { s.slot i with
               noticeWaiting :=
                 (s.slot i).noticeWaiting ||
                   (s.straps.fitted i && (s.slot i).pendingEvents &&& (m.setWidth 8 &&& ~~~s.noticeMask) != 0) }))

/-- DEFINE_GROUP: the policy code is checked first, then the group number, also with the undefine flag. An accepted define
stores the member set, the policy with k clamped to 1 to 24 and to the number of members, the timeout and the reply limit
clamped, and names the fields it changed; an undefine empties the entry. No other group changes (R57, R58, R59). While a
notice is on the pipe the receipt waits for it (R188), which the model holds as log 11 says. -/
def Obligations.GroupsAreDefinedAndUndefined : Prop :=
  ∀ (tag : Tag) (f : GroupFields) (s : State), s.intakeOpen = true →
    (∀ c : Instr, c ∈ [.defineGroup tag (.shaped f), .undefineGroup tag (.shaped f)] →
      (2 < f.policy.toNat → ∃ t, exec c s = .next t ∧ onlyAnswers s t ⟨tag, 0x06, .malformed, 0, .none⟩) ∧
        (f.policy.toNat ≤ 2 → f.group.toNat = 0 ∨ 31 < f.group.toNat →
          ∃ t, exec c s = .next t ∧ onlyAnswers s t ⟨tag, 0x06, .badGroup, 0, .none⟩)) ∧
    (f.policy.toNat ≤ 2 → 1 ≤ f.group.toNat → f.group.toNat ≤ 31 →
      (∃ t, exec (.undefineGroup tag (.shaped f)) s = .next t ∧ receiptJoins s t ⟨tag, 0x06, .accepted, 0, .none⟩ ∧
        keepsBut [.uplink, .groups] s t ∧ ∀ n, t.group n = if n = f.group.toNat then none else s.group n) ∧
      (s.straps.namesUnfitted f.members = false →
        let k := max 1 (min (clampTo 1 24 f.k.toNat) (slotCount f.members))
        let mask :=
          maskOf
            [f.policy.toNat == 2 && k != f.k.toNat, clampTo 1 60000 f.timeout.toNat != f.timeout.toNat,
              clampTo 0 240 f.replyMax.toNat != f.replyMax.toNat]
        ∃ t, exec (.defineGroup tag (.shaped f)) s = .next t ∧
          receiptJoins s t ⟨tag, 0x06, if mask = 0 then .accepted else .clamped, mask, .none⟩ ∧
          keepsBut [.uplink, .groups] s t ∧
          ∀ n,
            t.group n =
              if n = f.group.toNat then
                some
                  { members := f.members
                    policy := if f.policy = 0 then .all else if f.policy = 1 then .any else .quorum k
                    timeout := clampTo 1 60000 f.timeout.toNat
                    reply := clampTo 0 240 f.replyMax.toNat }
              else s.group n))

/-- SET_FIXTURE: a load is refused at the first code that has not exactly four bits set, then at the first code that a lower
slot also has, naming the slots; else its 24 codes are stored. A clear makes the table ABSENT without examining the codes
(R62, R63, R187). While a notice is on the pipe the receipt waits for it (R188), which the model holds as log 11 says. -/
def Obligations.FixtureLoadChecksTheCodes : Prop :=
  ∀ (tag : Tag) (codes : Vector Byte 24) (s : State), s.intakeOpen = true →
    (∃ t, exec (.setFixtureClear tag (.shaped codes)) s = .next t ∧ receiptJoins s t ⟨tag, 0x07, .accepted, 0, .none⟩ ∧
      keepsBut [.uplink, .fixture] s t ∧ t.fixture = none) ∧
    (∀ i : SlotId, codeWeight (codes.get i) ≠ 4 → (∀ j < i, codeWeight (codes.get j) = 4) →
      ∃ t, exec (.setFixtureLoad tag (.shaped codes)) s = .next t ∧
        onlyAnswers s t ⟨tag, 0x07, .badCode, BitVec.ofNat 16 i.val, .none⟩) ∧
    ((∀ i : SlotId, codeWeight (codes.get i) = 4) →
      (∀ i j : SlotId, i < j → codes.get i = codes.get j → (∀ l < j, ∀ k < l, codes.get k ≠ codes.get l) →
        ∃ t, exec (.setFixtureLoad tag (.shaped codes)) s = .next t ∧
          onlyAnswers s t ⟨tag, 0x07, .duplicateCode, BitVec.ofNat 16 (i.val + 256 * j.val), .none⟩) ∧
      ((∀ i j : SlotId, i < j → codes.get i ≠ codes.get j) →
        ∃ t, exec (.setFixtureLoad tag (.shaped codes)) s = .next t ∧
          receiptJoins s t ⟨tag, 0x07, .accepted, 0, .none⟩ ∧ keepsBut [.uplink, .fixture] s t ∧
          t.fixture = some codes))

/-- SET_TRANSLATION refuses a list of more than 8 pairs, then one with a host service twice; else every slot of the set holds
exactly the pairs of the list (R66). While a notice is on the pipe the receipt waits for it (R188), which the model holds as
log 11 says. -/
def Obligations.TranslationsReplaceTheTables : Prop :=
  ∀ (tag : Tag) (f : TranslationFields) (s : State), s.intakeOpen = true → s.straps.namesUnfitted f.set = false →
    (8 < f.pairs.length →
      ∃ t, exec (.setTranslation tag (.shaped f)) s = .next t ∧ onlyAnswers s t ⟨tag, 0x08, .tooLong, 0, .none⟩) ∧
    (f.pairs.length ≤ 8 → ¬ (f.pairs.map (·.1)).Nodup →
      ∃ t, exec (.setTranslation tag (.shaped f)) s = .next t ∧ onlyAnswers s t ⟨tag, 0x08, .duplicateKey, 0, .none⟩) ∧
    (f.pairs.length ≤ 8 → (f.pairs.map (·.1)).Nodup →
      ∃ t, exec (.setTranslation tag (.shaped f)) s = .next t ∧ receiptJoins s t ⟨tag, 0x08, .accepted, 0, .none⟩ ∧
        keepsBut [.uplink, .slots] s t ∧
        ∀ i, t.slot i = if i ∈ slotsOf f.set then { s.slot i with translation := f.pairs } else s.slot i)

/-! ### Operations -/

/-- DIRECT and PUSH are refused by the first of the checks of R70 that fails: the codes, the tag, the table, the source, the
payload, the image (R60, R70, R134). Nothing else changes. While a notice is on the pipe the receipt waits for it (R188),
which the model holds as log 11 says. -/
def Obligations.OperationsAreRefusedInOrder : Prop :=
  ∀ (tag : Tag) (f : OperationFields) (payload : List Byte) (image : Byte) (s : State), s.intakeOpen = true →
    let before : Option ResultCode :=
      if 1 < f.selector.toNat ∨ 1 < f.policyPresent.toNat ∨ 1 < f.replyPresent.toNat ∨
          (f.policyPresent.toNat = 1 ∧ 2 < f.policy.toNat) then some .malformed
      else if tag ∈ s.ops.map (·.tag) then some .duplicateTag
      else if 16 ≤ s.ops.length then some .tableFull
      else if f.selector = 0 ∧ s.group f.group.toNat = none then some .badGroup
      else if f.selector = 1 ∧ s.straps.namesUnfitted f.set = true then some .badSlot
      else none
    (∀ c, before.or (if 240 < payload.length then some .tooLong else none) = some c →
      ∃ t, exec (.direct tag (.shaped ⟨f, payload⟩)) s = .next t ∧ onlyAnswers s t ⟨tag, 0x09, c, 0, .none⟩) ∧
    ∀ c,
      before.or
          (if h : image.toNat < 8 then
            match (s.image ⟨image.toNat, h⟩).state with
            | .ready => none
            | .free => some .badImage
            | _ => some .wrongState
          else some .badImage) = some c →
      ∃ t, exec (.push tag (.shaped ⟨f, image⟩)) s = .next t ∧ onlyAnswers s t ⟨tag, 0x0A, c, 0, .none⟩

/-- An operation that passes the checks of R70 is resolved after every request sent before it has been taken (R75, log 12);
`u` is the state then. It is refused NO_ROOM when its QUEUED members times R exceed the free gather memory (R73). Else its
entry is created, with the policy, T and R of R71 and the members of R72, and the receipt queued; it completes at once when
its policy decides it, and else an append is sent to each QUEUED member (R74, R76). A receipt or a report that joins while a
notice is on the pipe waits for it (R188; log 11). -/
def Obligations.OperationsAreAccepted : Prop :=
  ∀ (tag : Tag) (f : OperationFields) (s : State) (source : Source) (set : SlotSet) (policy : Policy)
    (timeout reply : Nat), s.intakeOpen = true → f.selector.toNat ≤ 1 → f.policyPresent.toNat ≤ 1 →
    f.replyPresent.toNat ≤ 1 → (f.policyPresent = 1 → f.policy.toNat ≤ 2) → tag ∉ s.ops.map (·.tag) →
    s.ops.length < 16 →
    (f.selector = 0 →
      source = .group f.group.toNat ∧ s.group f.group.toNat = some ⟨set, policy, timeout, reply⟩) →
    (f.selector = 1 →
      source = .explicit set ∧ set = f.set ∧ s.straps.namesUnfitted set = false ∧ policy = .all ∧ timeout = 10000 ∧
        reply = 64) →
    ∀ (c : Instr) (kind : Byte) (work : Work),
      ((∃ payload : List Byte, payload.length ≤ 240 ∧ c = .direct tag (.shaped ⟨f, payload⟩) ∧ kind = 0x09 ∧
          work = .directive payload) ∨
        ∃ (image : Byte) (h : image.toNat < 8) (crc : Word), (s.image ⟨image.toNat, h⟩).state = .ready ∧
          (s.image ⟨image.toNat, h⟩).fields.expectedCrc = some crc ∧ c = .push tag (.shaped ⟨f, image⟩) ∧ kind = 0x0A ∧
          work =
            .push ⟨image.toNat, h⟩ (s.image ⟨image.toNat, h⟩).generation (s.image ⟨image.toNat, h⟩).fields.highMark crc) →
      let u := (slotsOf set).foldl State.drain s
      let k := max 1 (min (clampTo 1 24 f.k.toNat) (slotCount set))
      let clampedT := clampTo 1 60000 f.timeout.toNat
      let clampedR := clampTo 0 240 f.replyMax.toNat
      let mask :=
        maskOf
          [f.policyPresent == 1 && f.policy == 2 && k != f.k.toNat, f.timeout != 0 && clampedT != f.timeout.toNat,
            f.replyPresent == 1 && clampedR != f.replyMax.toNat]
      let members : List Member :=
        (slotsOf set).map fun i =>
          ⟨i,
            if (u.slot i).state.queueing then
              if (u.slot i).queue.length < 4 then .queued else .skipped .queueFull
            else .skipped (.state (u.slot i).state), none⟩
      let queued := (slotsOf set).filter fun i => (u.slot i).state.queueing && decide ((u.slot i).queue.length < 4)
      let replyLimit := if f.replyPresent = 1 then clampedR else reply
      let o : Operation :=
        { tag := tag, work := work, source := source
          policy :=
            if f.policyPresent = 1 then
              if f.policy = 0 then .all else if f.policy = 1 then .any else .quorum k
            else policy
          service := f.service
          timeout := if f.timeout = 0 then timeout else clampedT
          reply := replyLimit
          accepted := s.now, members := members, passed := 0, failed := 0, final := members.length - queued.length,
          reservation := queued.length * replyLimit, phase := .live }
      ∃ t, exec c s = .next t ∧
        if u.freeGather < queued.length * replyLimit then onlyAnswers u t ⟨tag, kind, .noRoom, 0, .none⟩
        else
          receiptQueued u t
              ⟨tag, kind, if mask = 0 then .accepted else .clamped, mask, .accepted members.length queued.length⟩ ∧
            keepsBut [.uplink, .operations, .slots] u t ∧ t.uplink.bridgeOuts = u.uplink.bridgeOuts ∧
            t.uplink.notices = u.uplink.notices ∧
            match o.decision with
            | some v =>
              t.ops = u.ops ++ [o.closed .earlyDone v s.now] ∧ t.slots = u.slots ∧
                t.uplink.gathers =
                  u.uplink.gathers ++
                    [⟨tag, work, v, o.policy, f.service, o.timeout, o.reply, s.now, 0,
                      (o.closed .earlyDone v s.now).members⟩]
            | none =>
              t.ops = u.ops ++ [o] ∧ t.uplink.gathers = u.uplink.gathers ∧
                ∀ i,
                  t.slot i =
                    if i ∈ queued then
                      { u.slot i with
                        requests := (u.slot i).requests ++ [.append ⟨tag, f.service, s.now, o.timeout, work⟩] }
                    else u.slot i

/-- The completion policy decides by the statuses of the members (R87, R88, R89, R90): EMPTY without members; ALL when every
member is final, PASS if every one passed; ANY at the first that passed, or FAIL when all are final; QUORUM when k have
passed, or FAIL when those passed and those not final are fewer than k. -/
def Obligations.CompletionPolicyDecides : Prop :=
  ∀ o : Operation, o.sound →
    let passed := (o.members.filter fun m => m.status.isPassed).length
    let left := (o.members.filter fun m => !m.status.isFinal).length
    (o.members = [] → o.decision = some .empty) ∧
      (o.members ≠ [] →
        (o.policy = .all →
          ((∃ m ∈ o.members, m.status.isFinal = false) → o.decision = none) ∧
            ((∀ m ∈ o.members, m.status.isPassed = true) → o.decision = some .pass) ∧
            ((∀ m ∈ o.members, m.status.isFinal = true) → (∃ m ∈ o.members, m.status.isPassed = false) →
              o.decision = some .fail)) ∧
        (o.policy = .any →
          ((∃ m ∈ o.members, m.status.isPassed = true) → o.decision = some .pass) ∧
            ((∀ m ∈ o.members, m.status.isFinal = true ∧ m.status.isPassed = false) → o.decision = some .fail) ∧
            ((∀ m ∈ o.members, m.status.isPassed = false) → (∃ m ∈ o.members, m.status.isFinal = false) →
              o.decision = none)) ∧
        ∀ k, o.policy = .quorum k →
          (k ≤ passed → o.decision = some .pass) ∧ (passed + left < k → o.decision = some .fail) ∧
            (passed < k → k ≤ passed + left → o.decision = none))

/-- CANCEL answers NOT_FOUND when no entry holds the tag and TOO_LATE when its entry is REPORTING. A LIVE operation completes
with verdict CANCELLED: its open members become CANCELLED (HOST) and are withdrawn, and its report follows the receipt
(R92, R93), both behind a notice that is on the pipe (R188; log 11). -/
def Obligations.CancelEndsALiveOperation : Prop :=
  ∀ (tag target : Tag) (s : State), s.intakeOpen = true →
    (target ∉ s.ops.map (·.tag) →
      ∃ t, exec (.cancel tag (.shaped target)) s = .next t ∧ onlyAnswers s t ⟨tag, 0x0B, .notFound, 0, .none⟩) ∧
    ((s.ops.map (·.tag)).Nodup → ∀ o ∈ s.ops, o.tag = target →
      (o.phase ≠ .live →
        ∃ t, exec (.cancel tag (.shaped target)) s = .next t ∧ onlyAnswers s t ⟨tag, 0x0B, .tooLate, 0, .none⟩) ∧
      (o.phase = .live →
        ∃ u t, exec (.cancel tag (.shaped target)) s = .next t ∧ onlyAnswers s u ⟨tag, 0x0B, .accepted, 0, .none⟩ ∧
          operationCompletes u t o .host .cancelled ∧ t.uplink.sending = u.uplink.sending))

/-- A slot engine takes an append by the slot's state: in a queueing state the entry joins the queue's tail and the slot
engine goes on with its own work; else the QUEUED member of a LIVE operation becomes SKIPPED, with the state found or, for a
full queue, with QUEUE_FULL (log 26), and the policy is evaluated (R72, R75); with no such member the append is taken and
nothing else changes (R84). A slot engine takes a withdraw wherever the member stands (R78): its queue entry is removed, a
directive in flight becomes an orphan, a stream in flight is stopped and aborted, and otherwise nothing happens. -/
def Obligations.SlotRequestsAreTakenByState : Prop :=
  (∀ (i : SlotId) (s : State) (e : QueueEntry) (rest : List SlotRequest), (s.slot i).requests = .append e :: rest →
     (((s.slot i).state.queueing = true → (s.slot i).queue.length < 4 →
       ∃ t u : State, exec (.append i) s = .next t ∧ t = u.slotWork i ∧ keepsBut [.slots] s u ∧ slotsBut (· = i) s u ∧
         u.slot i = { s.slot i with requests := rest, queue := (s.slot i).queue ++ [e] }) ∧
     ((s.slot i).state.queueing = false ∨ 4 ≤ (s.slot i).queue.length →
       (s.ops.map (·.tag)).Nodup →
       (∀ o ∈ s.ops, o.tag = e.tag → o.phase = .live → ∀ m, o.member i = some m → m.status = .queued →
         ∃ t u : State, exec (.append i) s = .next t ∧ keepsBut [.slots] s u ∧ slotsBut (· = i) s u ∧
           u.slot i = { s.slot i with requests := rest } ∧
           memberEnds u t o i
             (.skipped (if (s.slot i).state.queueing then .queueFull else .state (s.slot i).state))) ∧
       ((∀ o ∈ s.ops, o.tag = e.tag → o.phase ≠ .live ∨ ∀ m, o.member i = some m → m.status ≠ .queued) →
         ∃ t, exec (.append i) s = .next t ∧ keepsBut [.slots] s t ∧ slotsBut (· = i) s t ∧
           t.slot i = { s.slot i with requests := rest })))) ∧
  (∀ (i : SlotId) (s : State) (tag : Tag) (rest : List SlotRequest), (s.slot i).requests = .withdraw tag :: rest →
     let x : Slot := { s.slot i with requests := rest }
     let owns := x.inFlight.bind (·.owner) = some tag
     ∃ t, exec (.withdraw i) s = .next t ∧ keepsBut [.images, .slots] s t ∧ slotsBut (· = i) s t ∧
       (if tag ∈ x.queue.map (·.tag) then
         t.images = s.images ∧ t.slot i = { x with queue := x.queue.filter fun e => e.tag != tag }
       else if owns ∧ x.state = .busy then
         t.images = s.images ∧ t.slot i = { x with inFlight := x.inFlight.map fun f => { f with owner := none } }
       else if owns ∧ x.state = .streaming then
         releasesReferences s t (· == i) ∧ t.slot i = x.released.abortingFrom
       else t.images = s.images ∧ t.slot i = x))

/-- A start report makes the QUEUED member of a LIVE operation ACTIVE, with the start time and the window (R80). A report
about a member that is already final, of an operation that is REPORTING, or with a tag that no entry holds is discarded: it
leaves the slot's channel and nothing else changes (R84, R92). That a report finds its member by tag and slot alone is
log 32. -/
def Obligations.StartsActivateAndLateReportsAreDiscarded : Prop :=
  (∀ (i : SlotId) (s : State) (tag : Tag) (time : Count) (window : Nat) (rest : List Report) (o : Operation),
     (s.slot i).reports = ⟨tag, .start time window⟩ :: rest → (s.ops.map (·.tag)).Nodup → o ∈ s.ops → o.tag = tag →
     o.phase = .live →
     ∃ t, exec (.startReport i) s = .next t ∧ keepsBut [.operations, .slots] s t ∧ slotsBut (· = i) s t ∧
       t.slot i = { s.slot i with reports := rest } ∧
       t.ops =
         s.ops.map fun q =>
           if q.tag = tag then
             { o with
               members :=
                 o.members.map fun m =>
                   if m.slot = i ∧ m.status = .queued then { m with status := .active, started := some (time, window) }
                   else m }
           else q) ∧
  (∀ (i : SlotId) (s : State) (tag : Tag) (body : ReportBody) (rest : List Report),
     (s.slot i).reports = ⟨tag, body⟩ :: rest →
     (∀ o ∈ s.ops, o.tag = tag → o.phase ≠ .live ∨ ∀ m ∈ o.members, m.slot = i → m.status.isFinal = true) →
     let c : Instr :=
       match body with
       | .start _ _ => .startReport i
       | .result _ _ _ => .resultReport i
       | .windowExpiry => .windowExpiryReport i
       | .queueLimit => .queueLimitReport i
       | .drop _ => .dropReport i
       | .streamDamage => .streamDamageReport i
     ∃ t, exec c s = .next t ∧ keepsBut [.slots] s t ∧ slotsBut (· = i) s t ∧
       t.slot i = { s.slot i with reports := rest })

/-- The reports that end a member of a LIVE operation (R81, R82, R83): a RESULT makes an ACTIVE member PASSED or FAILED, with
the class, the response time from its start, the length and the first R bytes; a window expiry makes an ACTIVE member and a
queue limit a QUEUED one TIMED_OUT; a drop or a stream damage makes any open member DROPPED. Then the policy is evaluated.
That a report finds its member by tag and slot alone is log 32. -/
def Obligations.ReportsEndMembers : Prop :=
  ∀ (i : SlotId) (s : State) (tag : Tag) (body : ReportBody) (rest : List Report) (o : Operation) (m : Member),
    (s.slot i).reports = ⟨tag, body⟩ :: rest → (s.ops.map (·.tag)).Nodup → o ∈ s.ops → o.tag = tag → o.phase = .live →
    o.member i = some m →
    let u := s.modSlot i fun x => { x with reports := rest }
    (∀ time cls payload start window, body = .result time cls payload → m.status = .active →
      m.started = some (start, window) →
      let r : MemberResult := ⟨cls, time - start, payload.length, o.reply < payload.length, payload.take o.reply⟩
      ∃ t, exec (.resultReport i) s = .next t ∧ memberEnds u t o i (if cls = .pass then .passed r else .failed r)) ∧
    (body = .windowExpiry → m.status = .active →
      ∃ t, exec (.windowExpiryReport i) s = .next t ∧ memberEnds u t o i (.timedOut .window)) ∧
    (body = .queueLimit → m.status = .queued →
      ∃ t, exec (.queueLimitReport i) s = .next t ∧ memberEnds u t o i (.timedOut .queued)) ∧
    (∀ cause, body = .drop cause → m.status.isFinal = false →
      ∃ t, exec (.dropReport i) s = .next t ∧ memberEnds u t o i (.dropped cause)) ∧
    (body = .streamDamage → m.status.isFinal = false →
      ∃ t, exec (.streamDamageReport i) s = .next t ∧ memberEnds u t o i (.dropped .imageDamaged))

/-! ### The image store -/

/-- When the store is free, the arbiter grants the first waiting requester at or after its pointer, going round the cycle of
26 positions, and moves the pointer to the position after it; with a grant in progress, or no requester waiting, nothing
changes (R132). The write path waits with an IMAGE_WRITE in progress; the engine for one block access at a time, while its
job has blocks to do (R124); a slot's stream reader for the block of the stream's next chunk (R139). When an access of the
write path or of a reader is reported done while the engine's block is in progress, that block has been done before it: a
clearing's block is 0xFF with fresh codes (R125); a verification's is read, its corrected words counted (R117), and an
uncorrectable word ends the job (R129). (How the model holds the engine's grant is log 9, the bits in error log 8.) -/
def Obligations.ArbiterGrantsInTurn : Prop :=
  (∀ s : State,
    (s.granted ≠ none ∨ (∀ p, s.storeRequest p = none) → s.grant = s) ∧
      ∀ n : Nat, s.granted = none → n < 26 →
        (∀ m < n, s.storeRequest (s.arbiterPointer + Fin.ofNat 26 m) = none) →
        ∀ g, s.storeRequest (s.arbiterPointer + Fin.ofNat 26 n) = some g →
          s.grant.granted = some g ∧ s.grant.arbiterPointer = s.arbiterPointer + Fin.ofNat 26 (n + 1) ∧
            keepsBut [.arbiter, .slots] s s.grant ∧
            ∀ j,
              s.grant.slot j =
                match g with
                | .reader i _ _ => if j = i then (s.slot j).modStream fun r => { r with read := .granted } else s.slot j
                | _ => s.slot j) ∧
  (∀ s : State,
    (s.storeRequest 0 =
      match s.port.inProgress with
      | some (.imageWrite ..) => some .writePath
      | _ => none) ∧
    (s.storeRequest 1 =
      match s.jobs with
      | [] => none
      | .clear k :: _ => if s.engineBlocks < (s.image k).fields.size.units * 512 then some .engine else none
      | .verify k :: _ => if s.engineBlocks < ((s.image k).fields.highMark + 511) / 512 then some .engine else none) ∧
    ∀ i : SlotId,
      s.storeRequest (Fin.ofNat 26 (2 + i.val)) =
        match (s.slot i).stream with
        | some r =>
          if r.read = .waiting then
            some (.reader i r.image ((s.image r.image).fields.base * 512 + r.nextChunk))
          else none
        | none => none) ∧
  (∀ (lostOne lostTwo : List Nat) (s : State), s.granted = some .engine →
    (∀ tag k offset data discard, s.port.inProgress = some (.imageWrite tag k offset data discard) →
      s.endEngineAccess.granted = some .writePath →
      exec (.imageWriteAccessDone lostOne lostTwo) s = exec (.imageWriteAccessDone lostOne lostTwo) s.endEngineAccess) ∧
    ∀ i k block, s.endEngineAccess.granted = some (.reader i k block) →
      exec (.streamChunkRead i lostOne lostTwo) s = exec (.streamChunkRead i lostOne lostTwo) s.endEngineAccess) ∧
  ∀ (k : ImageId) (rest : List Job) (s : State), s.granted = some .engine →
    let block := (s.image k).fields.base * 512 + s.engineBlocks
    let inBlock := fun w => 64 * block ≤ w && decide (w < 64 * block + 64)
    (s.jobs = .clear k :: rest → s.engineBlocks < (s.image k).fields.size.units * 512 → Memory.wf s.store = true →
      ∃ u : State, s.endEngineAccess = u.grant ∧ keepsBut [.store, .jobs, .arbiter] s u ∧ u.granted = none ∧
        u.arbiterPointer = s.arbiterPointer ∧ u.engineAlone = s.engineAlone ∧ u.jobs = s.jobs ∧
        u.engineBlocks = s.engineBlocks + 1 ∧
        u.lostBits = s.lostBits.filter (fun w => !inBlock w) ∧
        ∀ b,
          Memory.read u.store b =
            if 512 * block ≤ b ∧ b < 512 * block + 512 then 0xFF else Memory.read s.store b) ∧
    (s.jobs = .verify k :: rest → s.engineBlocks < ((s.image k).fields.highMark + 511) / 512 →
      (s.image k).state = .verifying →
      let corrected := (s.lostBits.filter fun w => inBlock w && s.lostBits.count w == 1).length
      let isBad := s.lostBits.any fun w => inBlock w && decide (2 ≤ s.lostBits.count w)
      ∃ u : State, s.endEngineAccess = u.grant ∧ keepsBut [.images, .jobs, .arbiter] s u ∧ u.granted = none ∧
        u.arbiterPointer = s.arbiterPointer ∧ u.jobs = (if isBad then rest else s.jobs) ∧
        u.engineBlocks = (if isBad then 0 else s.engineBlocks + 1) ∧
        u.engineAlone = (if isBad then false else s.engineAlone) ∧
        ∀ l,
          u.image l =
            if l = k then
              { s.image k with
                state := if isBad then .damaged else .verifying
                fields :=
                  { (s.image k).fields with
                    corrected := min ((s.image k).fields.corrected + corrected) 65535
                    computedCrc := if isBad then none else (s.image k).fields.computedCrc } }
            else s.image l)

/-- IMAGE_DEFINE passes the checks of R122 in their order, and then opens a window: the record is CLEARING with the next
generation, the base and size class given and its other fields at their first values (R123), and a clearing job joins the
engine's list (R124), which may be granted the store at once (R132). While a notice is on the pipe the receipt waits for it
(R188), which the model holds as log 11 says. -/
def Obligations.ImageDefineOpensAWindow : Prop :=
  ∀ (tag : Tag) (f : ImageDefineFields) (s : State), s.intakeOpen = true →
    let units := 2 ^ f.sizeClass.toNat
    let refused := fun c => ∃ t, exec (.imageDefine tag (.shaped f)) s = .next t ∧ onlyAnswers s t ⟨tag, 0x0D, c, 0, .none⟩
    (4 < f.sizeClass.toNat → refused .malformed) ∧
      (f.sizeClass.toNat ≤ 4 →
        (8 ≤ f.image.toNat → refused .badImage) ∧
          ∀ k : ImageId, k.val = f.image.toNat →
            ((s.image k).state ≠ .free → refused .wrongState) ∧
              ((s.image k).state = .free →
                (f.base.toNat % units ≠ 0 ∨ 32 < f.base.toNat + units → refused .badBase) ∧
                  (f.base.toNat % units = 0 → f.base.toNat + units ≤ 32 →
                    let shares := fun l =>
                      (s.image l).state ≠ .free ∧ f.base.toNat < (s.image l).fields.base + (s.image l).fields.size.units ∧
                        (s.image l).fields.base < f.base.toNat + units
                    ((∃ l, shares l) → refused .overlap) ∧
                      ((∀ l, ¬ shares l) →
                        ∃ t size, exec (.imageDefine tag (.shaped f)) s = .next t ∧ SizeClass.units size = units ∧
                          receiptJoins s t ⟨tag, 0x0D, .accepted, 0, .none⟩ ∧
                          keepsBut [.uplink, .images, .jobs, .arbiter, .slots] s t ∧ t.jobs = s.jobs ++ [.clear k] ∧
                          t.engineBlocks = s.engineBlocks ∧ t.engineAlone = s.engineAlone ∧
                          (∀ l,
                            t.image l =
                              if l = k then
                                ⟨.clearing, (s.image k).generation + 1, ⟨f.base.toNat, size, 0, none, none, .none, 0, 0⟩⟩
                              else s.image l) ∧
                          ∀ j, (s.slot j).sameButGrant (t.slot j)))))

/-- IMAGE_COMMIT takes an image in LOADING with a high mark above 0 to VERIFYING, with the expected CRC given and no computed
one, and appends a verification job; IMAGE_RELEASE makes an image in LOADING, READY or DAMAGED with no references FREE, its
generation kept. Otherwise they are refused BAD_IMAGE, WRONG_STATE or IN_USE (R128, R130). While a notice is on the pipe the
receipt waits for it (R188), which the model holds as log 11 says. -/
def Obligations.ImageCommitAndReleaseMoveTheState : Prop :=
  ∀ (tag : Tag) (image : Byte) (crc : Word) (s : State), s.intakeOpen = true →
    let commit := fun t => exec (.imageCommit tag (.shaped ⟨image, crc⟩)) s = .next t
    let release := fun t => exec (.imageRelease tag (.shaped image)) s = .next t
    (8 ≤ image.toNat →
      (∃ t, commit t ∧ onlyAnswers s t ⟨tag, 0x0F, .badImage, 0, .none⟩) ∧
        ∃ t, release t ∧ onlyAnswers s t ⟨tag, 0x10, .badImage, 0, .none⟩) ∧
    ∀ k : ImageId, k.val = image.toNat →
      (¬ ((s.image k).state = .loading ∧ 0 < (s.image k).fields.highMark) →
        ∃ t, commit t ∧ onlyAnswers s t ⟨tag, 0x0F, .wrongState, 0, .none⟩) ∧
      ((s.image k).state = .loading → 0 < (s.image k).fields.highMark →
        ∃ t, commit t ∧ receiptJoins s t ⟨tag, 0x0F, .accepted, 0, .none⟩ ∧
          keepsBut [.uplink, .images, .jobs, .arbiter, .slots] s t ∧ t.jobs = s.jobs ++ [.verify k] ∧
          t.engineBlocks = s.engineBlocks ∧ t.engineAlone = s.engineAlone ∧
          (∀ l,
            t.image l =
              if l = k then
                { s.image k with
                  state := .verifying
                  fields := { (s.image k).fields with expectedCrc := some crc, computedCrc := none } }
              else s.image l) ∧
          ∀ j, (s.slot j).sameButGrant (t.slot j)) ∧
      ((s.image k).state = .free ∨ (s.image k).state = .clearing ∨ (s.image k).state = .verifying →
        ∃ t, release t ∧ onlyAnswers s t ⟨tag, 0x10, .wrongState, 0, .none⟩) ∧
      ((s.image k).state = .loading ∨ (s.image k).state = .ready ∨ (s.image k).state = .damaged →
        ((s.image k).fields.references ≠ 0 → ∃ t, release t ∧ onlyAnswers s t ⟨tag, 0x10, .inUse, 0, .none⟩) ∧
          ((s.image k).fields.references = 0 →
            ∃ t, release t ∧ receiptJoins s t ⟨tag, 0x10, .accepted, 0, .none⟩ ∧ keepsBut [.uplink, .images] s t ∧
              ∀ l, t.image l = if l = k then ⟨.free, (s.image k).generation, ImageFields.absent⟩ else s.image l))

/-- IMAGE_WRITE passes the checks of R126 in their order; accepted, it raises the high mark and waits for its store accesses,
and its receipt waits with it (R121). That the engine had the store to itself until then is kept (log 9). While a notice is
on the pipe the receipt waits for it (R188), which the model holds as log 11 says. -/
def Obligations.ImageWriteWaitsForTheStore : Prop :=
  ∀ (tag : Tag) (f : ImageWriteFields) (s : State), s.intakeOpen = true →
    let refused := fun c => ∃ t, exec (.imageWrite tag (.shaped f)) s = .next t ∧ onlyAnswers s t ⟨tag, 0x0E, c, 0, .none⟩
    (f.data = [] → refused .malformed) ∧ (1024 < f.data.length → refused .tooLong) ∧
      (f.data ≠ [] → f.data.length ≤ 1024 →
        (8 ≤ f.image.toNat → refused .badImage) ∧
          ∀ k : ImageId, k.val = f.image.toNat →
            ((s.image k).state ≠ .loading → refused .wrongState) ∧
              ((s.image k).state = .loading →
                ((s.image k).fields.size.units * 262144 < f.offset.toNat + f.data.length → refused .tooLong) ∧
                  (f.offset.toNat + f.data.length ≤ (s.image k).fields.size.units * 262144 →
                    ∃ t, exec (.imageWrite tag (.shaped f)) s = .next t ∧
                      keepsBut [.port, .images, .arbiter, .slots] s t ∧
                      t.port = { s.port with inProgress := some (.imageWrite tag k f.offset.toNat f.data false) } ∧
                      (t.engineAlone = true ↔
                        s.engineAlone = true ∨ (s.granted = some .engine ∧ ∀ p, p ≠ 1 → s.storeRequest p = none)) ∧
                      (∀ l,
                        t.image l =
                          if l = k then
                            { s.image k with
                              fields :=
                                { (s.image k).fields with
                                  highMark := max (s.image k).fields.highMark (f.offset.toNat + f.data.length) } }
                          else s.image l) ∧
                      ∀ j, (s.slot j).sameButGrant (t.slot j))))

/-- One access of a write stores the data bytes up to the end of their block, and every word it touches has a fresh code. A
word covered in part is read first: a corrected one is counted, an uncorrectable one damages the image and is written back
with 0x00 where the write does not cover it. No other byte changes. The last access lets the receipt with the high mark be
sent, which a host port detach may have discarded (R117, R118, R126, R127, R190). The bits that the block's words have lost
since the access before are an operand (log 8). While a notice is on the pipe the receipt waits for it (R188), which the
model holds as log 11 says. The engine's progress stays (log 9). -/
def Obligations.WriteAccessStoresItsBlock : Prop :=
  ∀ (lostOne lostTwo : List Nat) (tag : Tag) (k : ImageId) (offset : Nat) (data : List Byte) (discard : Bool) (s : State),
    s.granted = some .writePath → s.port.inProgress = some (.imageWrite tag k offset data discard) →
    (discard = false → s.port.configured = true) → data ≠ [] →
    (s.image k).state = .loading ∨ (s.image k).state = .damaged → Memory.wf s.store = true →
    let a := (s.image k).fields.base * 262144 + offset
    let n := min data.length (512 - a % 512)
    let codes := Memory.loseBits s.lostBits (64 * (a / 512)) 64 (lostOne ++ lostTwo ++ lostTwo)
    let first := codes.count (a / 8)
    let last := codes.count ((a + n - 1) / 8)
    let firstRead := a % 8 ≠ 0 ∨ n < 8
    let lastRead := (a + n) % 8 ≠ 0 ∧ (a + n - 1) / 8 ≠ a / 8
    let lost := fun b => (firstRead ∧ 2 ≤ first ∧ b / 8 = a / 8) ∨ (lastRead ∧ 2 ≤ last ∧ b / 8 = (a + n - 1) / 8)
    let damaged := (firstRead ∧ 2 ≤ first) ∨ (lastRead ∧ 2 ≤ last)
    let counted := (if firstRead ∧ first = 1 then 1 else 0) + (if lastRead ∧ last = 1 then 1 else 0)
    a + data.length ≤ 8388608 →
    ∃ t, exec (.imageWriteAccessDone lostOne lostTwo) s = .next t ∧
      keepsBut [.port, .uplink, .images, .store, .arbiter, .slots] s t ∧ Memory.wf t.store = true ∧
      (∀ b, ¬ (a ≤ b ∧ b < a + n) →
        (lost b → Memory.read t.store b = 0) ∧ (¬ lost b → Memory.read t.store b = Memory.read s.store b)) ∧
      (∀ m < n, Memory.read t.store (a + m) = data.getD m 0) ∧
      t.lostBits = codes.filter (fun w => !(a / 8 ≤ w && decide (w ≤ (a + n - 1) / 8))) ∧
      (∀ l, l ≠ k → t.image l = s.image l) ∧ (t.image k).generation = (s.image k).generation ∧
      (t.image k).fields = { (s.image k).fields with corrected := min ((s.image k).fields.corrected + counted) 65535 } ∧
      (damaged → (t.image k).state = .damaged) ∧ (¬ damaged → (t.image k).state = (s.image k).state) ∧
      (∀ j, (s.slot j).sameButGrant (t.slot j)) ∧ t.engineAlone = s.engineAlone ∧
      (n < data.length →
        t.uplink = s.uplink ∧
          t.port = { s.port with inProgress := some (.imageWrite tag k (offset + n) (data.drop n) discard) }) ∧
      (n = data.length →
        t.port = { s.port with inProgress := none } ∧
          if discard = true then t.uplink = s.uplink
          else receiptJoins s t ⟨tag, 0x0E, .accepted, 0, .highMark (s.image k).fields.highMark⟩)

/-- A job of the engine ends when its last block is done: with all done, with the last one in progress, or, where no other
requester waits or at some time during the job none has waited, and so every grant was the engine's, with any number left
(R124, R132; how the model holds the engine's blocks is log 9). Until then its end is not taken. A clearing job ends with every byte of the window 0xFF, with fresh codes,
and the image in LOADING with high mark 0 (R125). A verification job reads the blocks left, up to one with an uncorrectable
word. It ends READY with outcome MATCH when the CRC-32 of the image's bytes is the expected one, in LOADING with MISMATCH
when it is not, and DAMAGED with no computed CRC at an uncorrectable word; the corrected words are counted (R117, R118,
R129). The job leaves the list. A stream's read is done (R117, R118, R133, R139): the corrected words of its block are
counted; a READY image becomes DAMAGED at an uncorrectable word, and a damage stop goes to every slot engine (R142); the
data is held for the stream that waits for it, no more than the last chunk's bytes, and otherwise discarded; a stream whose
read met an uncorrectable word waits for its damage stop (log 27). Where the image is READY or DAMAGED no longer, the errors
are charged to none (log 33). The slot engine goes on with its own work. The bits that the words read have lost since the
access before are an operand (log 8). -/
def Obligations.EngineJobsAndChunkReadsEnd : Prop :=
  (∀ (k : ImageId) (rest : List Job) (s : State),
     let base := (s.image k).fields.base
     let othersWait := ∃ p, p ≠ 1 ∧ s.storeRequest p ≠ none
     let mayEnd := fun left : Nat =>
       left = 0 ∨ s.engineAlone = true ∨ (s.granted = some .engine ∧ (left = 1 ∨ ¬ othersWait))
     let mayNotEnd := fun left : Nat =>
       left ≠ 0 ∧ s.engineAlone = false ∧
         ((∃ g, s.granted = some g ∧ g ≠ .engine) ∨ (s.granted = some .engine ∧ left ≠ 1 ∧ othersWait))
     (s.jobs = .clear k :: rest →
       let bytes := (s.image k).fields.size.units * 262144
       let left := (s.image k).fields.size.units * 512 - s.engineBlocks
       (mayNotEnd left → exec .clearingJobEnd s = .next s) ∧
       (mayEnd left → Memory.wf s.store = true →
         ∃ t, exec .clearingJobEnd s = .next t ∧ keepsBut [.images, .store, .jobs, .arbiter, .slots] s t ∧
           t.jobs = rest ∧ t.engineBlocks = 0 ∧ t.engineAlone = false ∧ Memory.wf t.store = true ∧
           (∀ b,
             Memory.read t.store b =
               if base * 262144 ≤ b ∧ b < base * 262144 + bytes then 0xFF else Memory.read s.store b) ∧
           t.lostBits =
             s.lostBits.filter (fun w => !(base * 32768 ≤ w && decide (w < base * 32768 + bytes / 8))) ∧
           (∀ l,
             t.image l =
               if l = k then { s.image k with state := .loading, fields := { (s.image k).fields with highMark := 0 } }
               else s.image l) ∧
           ∀ j, (s.slot j).sameButGrant (t.slot j))) ∧
     (s.jobs = .verify k :: rest → (s.image k).state = .verifying →
       base * 262144 + (s.image k).fields.highMark ≤ 8388608 →
       ∀ lostOne lostTwo : List Nat,
         let blocks := ((s.image k).fields.highMark + 511) / 512
         let codes := Memory.loseBits s.lostBits (base * 32768) (64 * blocks) (lostOne ++ lostTwo ++ lostTwo)
         let first := 64 * (base * 512 + s.engineBlocks)
         let bad :=
           codes.find? fun w => decide (first ≤ w ∧ w < first + 64 * (blocks - s.engineBlocks) ∧ 2 ≤ codes.count w)
         let left :=
           match bad with
           | some w => w / 64 + 1 - (base * 512 + s.engineBlocks)
           | none => blocks - s.engineBlocks
         let corrected :=
           (codes.filter fun w => decide (first ≤ w ∧ w < first + 64 * left ∧ codes.count w = 1)).length
         let crc := crc32 ((List.range (s.image k).fields.highMark).map fun b => Memory.read s.store (base * 262144 + b))
         let isMatch := (s.image k).fields.expectedCrc = some crc
         (mayNotEnd left → exec (.verificationJobEnd lostOne lostTwo) s = .next s) ∧
         (mayEnd left →
           ∃ t, exec (.verificationJobEnd lostOne lostTwo) s = .next t ∧
             keepsBut [.images, .store, .jobs, .arbiter, .slots] s t ∧ t.jobs = rest ∧ t.engineBlocks = 0 ∧
             t.engineAlone = false ∧
             t.store = s.store ∧ t.lostBits = codes ∧
             (∀ l, l ≠ k → t.image l = s.image l) ∧ (t.image k).generation = (s.image k).generation ∧
             (t.image k).fields =
               { (s.image k).fields with
                 corrected := min ((s.image k).fields.corrected + corrected) 65535
                 computedCrc := if bad.isSome then none else some crc
                 outcome := (t.image k).fields.outcome } ∧
             (bad ≠ none → (t.image k).state = .damaged ∧ (t.image k).fields.outcome = (s.image k).fields.outcome) ∧
             (bad = none → isMatch → (t.image k).state = .ready ∧ (t.image k).fields.outcome = .matched) ∧
             (bad = none → ¬ isMatch → (t.image k).state = .loading ∧ (t.image k).fields.outcome = .mismatch) ∧
             ∀ j, (s.slot j).sameButGrant (t.slot j)))) ∧
  (∀ (i : SlotId) (k : ImageId) (block : Nat) (lostOne lostTwo : List Nat) (s : State), s.granted = some (.reader i k block) →
     512 * (block + 1) ≤ 8388608 →
     let codes := Memory.loseBits s.lostBits (64 * block) 64 (lostOne ++ lostTwo ++ lostTwo)
     let inBlock := fun w => 64 * block ≤ w && decide (w < 64 * block + 64)
     let corrected := (codes.filter fun w => inBlock w && codes.count w == 1).length
     let isBad := codes.any fun w => inBlock w && decide (2 ≤ codes.count w)
     ∃ t u : State, exec (.streamChunkRead i lostOne lostTwo) s = .next t ∧ t = u.slotWork i ∧
       keepsBut [.images, .store, .arbiter, .slots] s u ∧ u.store = s.store ∧ u.lostBits = codes ∧
       u.granted = none ∧ u.arbiterPointer = s.arbiterPointer ∧ u.engineAlone = s.engineAlone ∧
       (∀ l,
         u.image l =
           if l = k ∧ ((s.image k).state = .ready ∨ (s.image k).state = .damaged) then
             { s.image k with
               state := if isBad then .damaged else (s.image k).state
               fields :=
                 { (s.image k).fields with corrected := min ((s.image k).fields.corrected + corrected) 65535 } }
           else s.image l) ∧
       ∀ j,
         let x : Slot :=
           { s.slot j with
             damageStops :=
               if isBad = true ∧ (s.image k).state = .ready then
                 (s.slot j).damageStops ++ [⟨k, (s.image k).generation⟩]
               else (s.slot j).damageStops }
         u.slot j =
           if j = i then
             x.modStream fun r =>
               if r.read = .granted then
                 { r with
                   read :=
                     if isBad then .failed
                     else
                       .held ((List.range (min 512 (r.length - 512 * r.nextChunk))).map fun b =>
                         Memory.read s.store (512 * block + b)) }
               else r
           else x)

/-! ### The console and the bridge -/

/-- READ_CONSOLE returns the wrapped flag and the ring's bytes, and empties both; a bridged slot refuses it WRONG_STATE, and
a number that names no fitted slot is BAD_SLOT (R2, R161). While a notice is on the pipe the receipt waits for it (R188),
which the model holds as log 11 says. -/
def Obligations.ReadConsoleEmptiesTheRing : Prop :=
  ∀ (tag : Tag) (number : Byte) (s : State), s.intakeOpen = true →
    ((∀ i : SlotId, i.val = number.toNat → s.straps.fitted i = false) →
      ∃ t, exec (.readConsole tag (.shaped number)) s = .next t ∧ onlyAnswers s t ⟨tag, 0x14, .badSlot, 0, .none⟩) ∧
    ∀ i : SlotId, i.val = number.toNat → s.straps.fitted i = true →
      ((s.slot i).state = .bridge →
        ∃ t, exec (.readConsole tag (.shaped number)) s = .next t ∧ onlyAnswers s t ⟨tag, 0x14, .wrongState, 0, .none⟩) ∧
      ((s.slot i).state ≠ .bridge →
        ∃ t, exec (.readConsole tag (.shaped number)) s = .next t ∧
          receiptJoins s t ⟨tag, 0x14, .accepted, 0, .console (s.slot i).wrapped (s.slot i).ring⟩ ∧
          keepsBut [.uplink, .slots] s t ∧ slotsBut (· = i) s t ∧
          t.slot i = { s.slot i with ring := [], wrapped := false })

/-- OPEN_BRIDGE is checked by R162. In READY without a rate exchange it empties the ring, raises a BRIDGE_ENTER frame and
enters BRIDGE with a new bridge record, a frame partly received abandoned (R164); behind an exchange it waits, and its
receipt with it (R42). The exchange's end decides it; so does a move of the slot meanwhile, such as a fault request's, by
which it is refused WRONG_STATE at once (log 18). While a notice is on the pipe the receipt waits for it (R188), which the
model holds as log 11 says. How long the BRIDGE_ENTER occupies the line is log 10. -/
def Obligations.OpenBridgeEntersBridge : Prop :=
  ∀ (tag : Tag) (f : OpenBridgeFields) (s : State), s.intakeOpen = true →
    let run := fun t => exec (.openBridge tag (.shaped f)) s = .next t
    (3 < f.idleClass.toNat → ∃ t, run t ∧ onlyAnswers s t ⟨tag, 0x15, .malformed, 0, .none⟩) ∧
    (f.idleClass.toNat ≤ 3 →
      ((∀ i : SlotId, i.val = f.slot.toNat → s.straps.fitted i = false) →
        ∃ t, run t ∧ onlyAnswers s t ⟨tag, 0x15, .badSlot, 0, .none⟩) ∧
      ∀ i : SlotId, i.val = f.slot.toNat → s.straps.fitted i = true →
        let x := s.slot i
        let idleClass : Option Nat := [none, some 500, some 2000, some 8000].getD f.idleClass.toNat none
        let opened :=
          { Slot.raiseFrame { x with ring := [], wrapped := false, link := { x.link with receiver := .hunting } } 0x0B 0 [] with
            state := .bridge
            bridge := some ⟨x.link.rate, idleClass, idleClass.map fun n => ⟨s.now, n⟩, [], none⟩ }
        (x.state ≠ .ready → ∃ t, run t ∧ onlyAnswers s t ⟨tag, 0x15, .wrongState, 0, .none⟩) ∧
        (x.state = .ready → x.link.exchange = none →
          ∃ t, run t ∧ receiptJoins s t ⟨tag, 0x15, .accepted, 0, .none⟩ ∧ keepsBut [.uplink, .slots] s t ∧
            slotsBut (· = i) s t ∧ t.slot i = opened) ∧
        (x.state = .ready → x.link.exchange ≠ none →
          run { s with port := { s.port with inProgress := some (.openBridge tag i idleClass) } }) ∧
        (∀ (u : State) (r : FaultRequest) (rest : List FaultRequest), (u.slot i).faultRequests = r :: rest →
          (u.slot i).state.powered = true → (u.slot i).power.period = r.period →
          ∃ t, exec (.faultRequest i) u = .next t ∧ refusesDeferred u t i) ∧
        ∀ u : State, u.port.configured = true → u.port.inProgress = some (.openBridge tag i idleClass) →
          u.slot i = { x with link := { x.link with exchange := none } } → u.now = s.now →
          (x.state = .ready →
            receiptJoins u (u.resolveDeferred i) ⟨tag, 0x15, .accepted, 0, .none⟩ ∧
              keepsBut [.port, .uplink, .slots] u (u.resolveDeferred i) ∧ slotsBut (· = i) u (u.resolveDeferred i) ∧
              (u.resolveDeferred i).port = { u.port with inProgress := none } ∧
              (u.resolveDeferred i).slot i =
                { opened with link := { opened.link with exchange := none } }) ∧
          (x.state ≠ .ready →
            receiptJoins u (u.resolveDeferred i) ⟨tag, 0x15, .wrongState, 0, .none⟩ ∧
              keepsBut [.port, .uplink] u (u.resolveDeferred i) ∧
              (u.resolveDeferred i).port = { u.port with inProgress := none }))

/-- BRIDGE_DATA appends 1 to 1,024 bytes to the output buffer of a bridged slot, answers with the free space left and
restarts the idle timer; CLOSE_BRIDGE answers with the bytes still in the output buffer and takes the slot through the
orderly exit: BOOTING with the link at rest, the 2 ms break, the resync allowance of 1,000 ms (R166, R167, R170, R171). That
a frame on the line or waiting is dropped at the exit is log 19. While a notice is on the pipe the receipt waits for it
(R188), which the model holds as log 11 says. -/
def Obligations.BridgeDataAndCloseBridge : Prop :=
  ∀ (tag : Tag) (slot : Byte) (data : List Byte) (s : State), s.intakeOpen = true →
    let send := fun t => exec (.bridgeData tag (.shaped ⟨slot, data⟩)) s = .next t
    let close := fun t => exec (.closeBridge tag (.shaped slot)) s = .next t
    (data = [] → ∃ t, send t ∧ onlyAnswers s t ⟨tag, 0x16, .malformed, 0, .none⟩) ∧
    (1024 < data.length → ∃ t, send t ∧ onlyAnswers s t ⟨tag, 0x16, .tooLong, 0, .none⟩) ∧
    ((∀ i : SlotId, i.val = slot.toNat → s.straps.fitted i = false) →
      (data ≠ [] → data.length ≤ 1024 → ∃ t, send t ∧ onlyAnswers s t ⟨tag, 0x16, .badSlot, 0, .none⟩) ∧
        ∃ t, close t ∧ onlyAnswers s t ⟨tag, 0x17, .badSlot, 0, .none⟩) ∧
    ∀ i : SlotId, i.val = slot.toNat → s.straps.fitted i = true →
      ((s.slot i).state ≠ .bridge →
        (data ≠ [] → data.length ≤ 1024 → ∃ t, send t ∧ onlyAnswers s t ⟨tag, 0x16, .wrongState, 0, .none⟩) ∧
          ∃ t, close t ∧ onlyAnswers s t ⟨tag, 0x17, .wrongState, 0, .none⟩) ∧
      ∀ b : BridgeRecord, (s.slot i).state = .bridge → (s.slot i).bridge = some b →
        (data ≠ [] → data.length ≤ 1024 → 2048 - b.output.length < data.length →
          ∃ t, send t ∧ onlyAnswers s t ⟨tag, 0x16, .noRoom, 0, .none⟩) ∧
        (data ≠ [] → data.length ≤ 1024 → data.length ≤ 2048 - b.output.length →
          ∃ t, send t ∧
            receiptJoins s t ⟨tag, 0x16, .accepted, 0, .freeSpace (2048 - (b.output.length + data.length))⟩ ∧
            keepsBut [.uplink, .slots] s t ∧ slotsBut (· = i) s t ∧
            t.slot i =
              { s.slot i with
                bridge :=
                  some { b with output := b.output ++ data, idleTimer := b.idleClass.map fun n => ⟨s.now, n⟩ } }) ∧
        ∃ t, close t ∧ receiptJoins s t ⟨tag, 0x17, .accepted, 0, .discarded b.output.length⟩ ∧
          keepsBut [.uplink, .slots] s t ∧ slotsBut (· = i) s t ∧
          t.slot i =
            { s.slot i with
              state := .booting, bridge := none, link := ⟨0, 0, 0, 48, true, false, none, .hunting⟩
              tx := ⟨none, [], some ⟨s.now, 2⟩, 0⟩, allowance := some ⟨.resync, ⟨s.now, 1000⟩⟩ }

/-- The events of a bridged slot. A raw byte joins the console ring, overwriting the oldest byte of a full one, restarts the
idle timer, and with no message waiting queues a full message of 256 bytes or, into an empty ring, starts the gathering
timer (R159, R165, R168). The gathering timer's expiry queues the bytes the ring holds, up to 256. A byte sent leaves the
output buffer (R166, R167); none is sent before the BRIDGE_ENTER has left the line (R164; log 10). The idle timer's expiry
makes the orderly exit (R167, R171), at which a frame on the line or waiting is dropped (log 19). The end of a break, after
any exit, releases the line, and a frame raised during the break is begun (R34, R171). In a state that is neither BRIDGE nor
framed a byte is discarded (R38); what a framed link makes of it, which is log 16, is GoodFramesAreHandledByState. -/
def Obligations.BridgeEventsMoveTheBytes : Prop :=
  (∀ (i : SlotId) (b : BridgeRecord) (byte : Byte) (s : State), (s.slot i).state = .bridge → (s.slot i).bridge = some b →
    let x := s.slot i
    let idle : Option Timer := b.idleClass.map fun n => ⟨s.now, n⟩
    (let ring := if x.ring.length < 2048 then x.ring ++ [byte] else x.ring.drop 1 ++ [byte]
      let wrapped := if x.ring.length < 2048 then x.wrapped else true
      ∃ t, exec (.rawByteReceived i byte) s = .next t ∧ keepsBut [.uplink, .slots] s t ∧ slotsBut (· = i) s t ∧
        t.uplink.receipts = s.uplink.receipts ∧ t.uplink.gathers = s.uplink.gathers ∧
        t.uplink.notices = s.uplink.notices ∧
        if x.messageWaiting = false ∧ 256 ≤ ring.length then
          t.uplink.bridgeOuts = s.uplink.bridgeOuts ++ [⟨i, wrapped, ring.take 256⟩] ∧
            t.slot i =
              { x with
                ring := ring.drop 256, wrapped := false, messageWaiting := true
                bridge := some { b with idleTimer := idle, gathering := none } }
        else
          t.uplink = s.uplink ∧
            t.slot i =
              { x with
                ring := ring, wrapped := wrapped
                bridge :=
                  some
                    { b with
                      idleTimer := idle
                      gathering :=
                        if x.messageWaiting = false ∧ x.ring = [] then some ⟨s.now, 2⟩ else b.gathering } }) ∧
    (dueSome s.now b.gathering = true →
      (x.messageWaiting = false → x.ring ≠ [] →
        ∃ t, exec (.bridgeOutGatheringExpiry i) s = .next t ∧ keepsBut [.uplink, .slots] s t ∧ slotsBut (· = i) s t ∧
          t.uplink.receipts = s.uplink.receipts ∧ t.uplink.gathers = s.uplink.gathers ∧
          t.uplink.notices = s.uplink.notices ∧
          t.uplink.bridgeOuts = s.uplink.bridgeOuts ++ [⟨i, x.wrapped, x.ring.take 256⟩] ∧
          t.slot i =
            { x with
              ring := x.ring.drop 256, wrapped := false, messageWaiting := true
              bridge := some { b with gathering := none } }) ∧
      (x.messageWaiting = true ∨ x.ring = [] →
        ∃ t, exec (.bridgeOutGatheringExpiry i) s = .next t ∧ keepsBut [.slots] s t ∧ slotsBut (· = i) s t ∧
          t.slot i = { x with bridge := some { b with gathering := none } })) ∧
    (∀ out rest, b.output = out :: rest →
      (x.tx.free = true → x.tx.waiting = [] →
        ∃ t, exec (.bridgeByteSent i) s = .next t ∧ keepsBut [.slots] s t ∧ slotsBut (· = i) s t ∧
          t.slot i = { x with bridge := some { b with output := rest, idleTimer := idle } }) ∧
      (x.tx.free = false ∨ x.tx.waiting ≠ [] → exec (.bridgeByteSent i) s = .next s)) ∧
    (dueSome s.now b.idleTimer = true →
      ∃ t, exec (.bridgeIdleTimerExpiry i) s = .next t ∧ keepsBut [.slots] s t ∧ slotsBut (· = i) s t ∧
        t.slot i =
          { x with
            state := .booting, bridge := none, link := ⟨0, 0, 0, 48, true, false, none, .hunting⟩
            tx := ⟨none, [], some ⟨s.now, 2⟩, 0⟩, allowance := some ⟨.resync, ⟨s.now, 1000⟩⟩ })) ∧
  (∀ (i : SlotId) (s : State),
    let x := s.slot i
    dueSome s.now x.tx.breaking = true →
      ∃ t, exec (.breakEnd i) s = .next t ∧ keepsBut [.slots] s t ∧ slotsBut (· = i) s t ∧
        let released : Slot := { x with tx := { x.tx with breaking := none } }
        (x.tx.sending = none → x.tx.left = 0 → t.slot i = released.frameEnded) ∧
          (x.tx.sending = none → x.tx.waiting = [] → t.slot i = released) ∧
          (x.tx.sending ≠ none → t.slot i = released)) ∧
  ∀ (i : SlotId) (byte : Byte) (s : State), (s.slot i).state ≠ .bridge → (s.slot i).state.framed = false →
    exec (.rawByteReceived i byte) s = .next s

/-! ### Inputs and the life cycle -/

/-- A contact change runs the debounce timer while the contact differs from the present flag of a fitted slot, and stops it
when it returns (R3). That the nest's identity lines come with the contact is log 6. When the timer is due, the present flag
takes the contact's level. An ATTACH raises its event; in VACANT it is handled by R4, else only the flag changes (R5). A
DETACH raises its event, and moves every slot that is not VACANT or INHIBITED to VACANT with its members dropped (R6). An
OPEN_BRIDGE that waits behind the rate exchange of a slot that moves so is refused WRONG_STATE (R42, R162), at once (log 18;
behind a notice as log 11 says). -/
def Obligations.PresenceIsDebounced : Prop :=
  ∀ (i : SlotId) (s : State),
    let x := s.slot i
    (∀ (seated : Bool) (lines : Byte),
      ∃ t, exec (.presenceContactChange i seated lines) s = .next t ∧ keepsBut [.slots] s t ∧ slotsBut (· = i) s t ∧
        t.slot i =
          { x with
            contact := seated, nestLines := lines
            debounce :=
              if s.straps.fitted i = false ∨ seated = x.present then none
              else if x.debounce = none then some ⟨s.now, 50⟩
              else x.debounce }) ∧
    (s.straps.fitted i = true → dueSome s.now x.debounce = true → x.contact ≠ x.present →
      (x.contact = true →
        let y := Slot.raised { x with present := true, debounce := none } .attach s.noticeMask
        ∃ t, exec (.presenceDebounceExpiry i) s = .next t ∧ keepsBut [.uplink, .slots] s t ∧ slotsBut (· = i) s t ∧
          onlyNotices s t [i] ∧
          t.slot i =
            if x.state = .vacant then
              if x.faultRecord.isSome then { y with state := .fault, faultPeriod := none }
              else y.admitted (s.expectedCode i) s.now s.noticeMask
            else y) ∧
      (x.contact = false →
        let y := Slot.raised { x with present := false, debounce := none } .detach s.noticeMask
        let stops := x.state ≠ .vacant ∧ x.state ≠ .inhibited
        ∃ t, exec (.presenceDebounceExpiry i) s = .next t ∧ onlySlot s t i ∧
          (if stops then refusesDeferred s t i else t.port = s.port ∧ onlyNotices s t [i]) ∧
          releasesReferences s t (fun j => decide (j = i ∧ stops)) ∧
          t.slot i = if stops then y.stopped .detached .vacant else y))

/-- An interlock input runs the settling timer while it differs from the level taken (R7). When the timer is due, the level
is taken: a drawer that opens inhibits every fitted slot of its bank that is not INHIBITED, with drop cause INTERLOCK (R8);
one that closes lets its INHIBITED slots whose disable flag is clear leave INHIBITED (R9). An OPEN_BRIDGE that waits behind
the rate exchange of a slot inhibited so is refused WRONG_STATE (R42, R162), at once (log 18; behind a notice as log 11
says). That the bank's slots act, and their notices join, in ascending order is log 30. -/
def Obligations.InterlockSettles : Prop :=
  ∀ (bank : Bank) (s : State),
    let k := s.interlock bank
    (∀ isOpen : Bool, bank = .a ∨ s.straps.banksTwo = true →
      ∃ t, exec (.interlockInputChange bank isOpen) s = .next t ∧ keepsBut [.interlocks] s t ∧
        (∀ other, other ≠ bank → t.interlock other = s.interlock other) ∧
        t.interlock bank =
          { k with
            input := isOpen
            settling := if isOpen = k.taken then none else if k.settling = none then some ⟨s.now, 10⟩ else k.settling }) ∧
    (dueSome s.now k.settling = true →
      ∃ t, exec (.interlockSettleExpiry bank) s = .next t ∧
        keepsBut [.port, .uplink, .images, .interlocks, .slots] s t ∧
        (∀ other, other ≠ bank → t.interlock other = s.interlock other) ∧
        t.interlock bank = { k with taken := k.input, settling := none } ∧ slotsBut (fun i => bankOf i = bank) s t ∧
        (let stops := fun i =>
          bankOf i = bank ∧ k.input = true ∧ (s.slot i).state ≠ .unfitted ∧ (s.slot i).state ≠ .inhibited
        ((∀ i, stops i → s.deferredOn i = false) → t.port = s.port ∧ onlyNotices s t (bankSlots bank)) ∧
          (∀ i tag idleClass, stops i → s.port.inProgress = some (.openBridge tag i idleClass) →
            deferredRefused s t tag (bankSlots bank)) ∧
          releasesReferences s t (fun i => decide (stops i))) ∧
        ∀ i, bankOf i = bank →
          let x := s.slot i
          t.slot i =
            if k.input = true then
              if x.state = .unfitted ∨ x.state = .inhibited then x
              else (x.stopped .interlock .inhibited).raised .inhibit s.noticeMask
            else if x.state = .inhibited ∧ x.disabled = false then
              x.uninhibited (s.expectedCode i) s.now s.noticeMask
            else x)

/-- The due timers that move a slot on (R10, R11, R14, R154, R146): the settle timer to BOOTING with the boot allowance and
the key press; the off-timer to POWERING; the key's to its release; the blanking window's end. -/
def Obligations.TimersMoveTheSlot : Prop :=
  ∀ (i : SlotId) (s : State),
    let x := s.slot i
    (x.state = .powering → dueSome s.now x.settle = true →
      ∃ t, exec (.settleTimerExpiry i) s = .next t ∧ keepsBut [.slots] s t ∧ slotsBut (· = i) s t ∧
        t.slot i =
          { x with
            state := .booting
            settle := none
            link := { x.link with awaitingHello := true }
            allowance := some ⟨.boot, ⟨s.now, x.profile.bootAllow⟩⟩
            power :=
              { x.power with
                key := if x.profile.keyPress = 0 then x.power.key else some ⟨s.now, x.profile.keyPress⟩ } }) ∧
    (x.state = .recovering → dueSome s.now x.offTimer = true →
      ∃ t, exec (.recoveryOffTimerExpiry i) s = .next t ∧ keepsBut [.slots] s t ∧ slotsBut (· = i) s t ∧
        t.slot i = x.poweredUp s.now) ∧
    (dueSome s.now x.power.key = true →
      ∃ t, exec (.keyPressExpiry i) s = .next t ∧ keepsBut [.slots] s t ∧ slotsBut (· = i) s t ∧
        t.slot i = { x with power := { x.power with key := none } }) ∧
    (dueSome s.now x.power.blanking = true →
      ∃ t, exec (.blankingWindowExpiry i) s = .next t ∧ keepsBut [.slots] s t ∧ slotsBut (· = i) s t ∧
        t.slot i = { x with power := { x.power with blanking := none } })

/-- A boot or resync allowance that is due in BOOTING, and an abort wait that is due in ABORTING, lead to the recovery
decision (R11, R13, R53, R112, R172): RECOVERING with cause PART and one attempt more when auto_recover is yes and fewer
than 2 were made, else FAULT with NO_AGENT and the allowance's length, or HUNG and the aborted member's tag. A length above
65,535 has no stated detail (log 14). An OPEN_BRIDGE that waits on the slot is refused WRONG_STATE (R42, R162), at once (
log 18; behind a notice as log 11 says). -/
def Obligations.SilenceLeadsToTheRecoveryDecision : Prop :=
  ∀ (i : SlotId) (s : State),
    let x := s.slot i
    let decided := fun (y : Slot) (cause : FaultCause) (detail : Half) =>
      if x.profile.autoRecover = true ∧ x.recoveryAttempts < 2 then
        ({ y with recoveryAttempts := x.recoveryAttempts + 1 }.recovering .part s.now).raised .recovery s.noticeMask
      else y.faulted cause detail s.now s.noticeMask
    (∀ (kind : AllowanceKind) (timer : Timer), x.state = .booting → x.allowance = some ⟨kind, timer⟩ →
      due s.now timer = true →
      ∃ t,
        exec (match kind with
          | .boot => .bootAllowanceExpiry i
          | .resync => .resyncAllowanceExpiry i) s = .next t ∧
        onlySlot s t i ∧ refusesDeferred s t i ∧ releasesReferences s t (· == i) ∧
        t.slot i =
          decided { x with allowance := none } .noAgent
            (if timer.length < 65536 then BitVec.ofNat 16 timer.length else Config.longAllowanceDetail timer.length)) ∧
    (x.state = .aborting → dueSome s.now x.abortWait = true →
      ∃ t, exec (.abortWaitExpiry i) s = .next t ∧ onlySlot s t i ∧ refusesDeferred s t i ∧
        releasesReferences s t (· == i) ∧
        t.slot i =
          decided { x with inFlight := none, abortWait := none } .hung ((x.inFlight.bind (·.owner)).getD 0))

/-! ### The slot link -/

/-- A HELLO with seq 0 and 5 payload bytes, in any framed state (R38): the link changes of R39, the agent's identity and a
pending ceiling are taken. In BOOTING it stops the allowance (R11, R41). In READY, BUSY, STREAMING and ABORTING the agent
has restarted: the in-flight member is dropped with AGENT_RESTART (not in ABORTING), a stream's reference released, the
cause is SELF and RESTART_SELF raised (R16, R40). Then the rate exchange starts towards the smallest of rate_ceiling, strap
CEILING and the agent's maximum, or, at target 0, the slot is READY at once, with AGENT_UP (R12, R43). An OPEN_BRIDGE that
waits on a slot whose agent has restarted is refused WRONG_STATE (R42, R162), at once (log 18; behind a notice as log 11
says). -/
def Obligations.HelloStartsTheRateExchange : Prop :=
  ∀ (i : SlotId) (detector : Bool) (service : Byte) (payload : List Byte) (s : State), (s.slot i).state.framed = true →
    payload.length = 5 →
    let x := s.slot i
    let ceiling := x.pendingCeiling.getD x.profile.rateCeiling
    let target := min (min ceiling (if s.straps.ceilingFour then 4 else 3)) (byteAt payload 4).toNat
    let greeted : Slot :=
      { x with
        profile := { x.profile with rateCeiling := ceiling }, pendingCeiling := none
        agent := some ⟨halfAt payload 0, halfAt payload 2, byteAt payload 4⟩
        tx := { x.tx with waiting := [] }
        link :=
          { x.link with
            rate := 0, txCounter := 0, expected := 1, score := 48, awaitingHello := false, stepDownMark := false
            exchange := none, receiver := .hunting } }
    let y : Slot :=
      if x.state = .booting then { greeted with allowance := none }
      else
        Slot.raised
          { greeted with
            state := .booting, restartCause := .self, abortWait := none, inFlight := none
            reports := x.reports ++ x.inFlightDrop .agentRestart }
          .restartSelf s.noticeMask
    ∃ t u : State, exec (.hello i detector 0 service payload) s = .next t ∧ onlySlot s u i ∧
      (if x.state = .booting then u.port = s.port ∧ onlyNotices s u [i] else refusesDeferred s u i) ∧
      releasesReferences s u (fun j => decide (j = i ∧ x.state ≠ .booting)) ∧
      if target = 0 then
        t = u.slotWork i ∧
          u.slot i =
            Slot.raised { y with state := .ready, recoveryAttempts := 0, agentUpCause := some y.restartCause } .agentUp
              s.noticeMask
      else
        t = u ∧
          u.slot i =
            Slot.raiseFrame { y with link := { y.link with exchange := some ⟨target, .boot, none⟩ } } 0x02 0
              [BitVec.ofNat 8 target]

/-- A good LINK_ACK that echoes the target while the wait runs ends the exchange (R42): after a HELLO the link runs at the
target and the slot is READY with AGENT_UP (R12, R43); a step-down leaves score 40, no mark, and a longer window of a stream
(R44, R113), and lets a deferred OPEN_BRIDGE be applied. Any other good LINK_ACK is only counted (R54). A wait that is due
ends the exchange without its ACK: READY at the rate it has, or a LINK_LOST fault with the target, where a deferred
OPEN_BRIDGE is refused WRONG_STATE (R42, R43, R44, R162; log 18; behind a notice as log 11 says). -/
def Obligations.RateExchangesEnd : Prop :=
  ∀ (i : SlotId) (s : State) (service echo : Byte), (s.slot i).state.framed = true →
    let x := s.slot i
    let ready := fun y : Slot =>
      Slot.raised
        { y with
          state := .ready, recoveryAttempts := 0, agentUpCause := some x.restartCause
          link := { y.link with exchange := none } }
        .agentUp s.noticeMask
    (x.link.awaitingHello = false → echo.toNat ≤ 4 →
      (∀ target wait, x.link.exchange = some ⟨target, .boot, some wait⟩ → echo.toNat = target →
        ∃ t u : State, exec (.linkAck i x.link.expected service [echo]) s = .next t ∧ t = (u.slotWork i).slotWork i ∧
          keepsBut [.uplink, .slots] s u ∧ slotsBut (· = i) s u ∧ onlyNotices s u [i] ∧
          u.slot i = ready { x.countedGood with link := { x.countedGood.link with rate := target } }) ∧
      (∀ target wait, x.link.exchange = some ⟨target, .stepDown, some wait⟩ → echo.toNat = target →
        ∃ t u : State, exec (.linkAck i x.link.expected service [echo]) s = .next t ∧
          t = (u.resolveDeferred i).slotWork i ∧ keepsBut [.slots] s u ∧ slotsBut (· = i) s u ∧
          u.slot i =
            { x with
              link :=
                { x.link with
                  expected := x.link.expected + 1, rate := target, score := 40, stepDownMark := false, exchange := none
                  receiver := .hunting }
              inFlight :=
                match x.stream with
                | some r =>
                  if x.state = .streaming then
                    x.inFlight.map fun f =>
                      { f with
                        window :=
                          f.window.map fun w =>
                            { w with
                              length :=
                                min
                                  (w.length +
                                    (allowanceOf (remainingWire r) target - allowanceOf (remainingWire r) x.link.rate))
                                  1800000 } }
                  else x.inFlight
                | none => x.inFlight }) ∧
      ((∀ target purpose wait, x.link.exchange = some ⟨target, purpose, some wait⟩ → echo.toNat ≠ target) →
        ∃ t u : State, exec (.linkAck i x.link.expected service [echo]) s = .next t ∧ t = u.slotWork i ∧
          keepsBut [.slots] s u ∧ slotsBut (· = i) s u ∧ u.slot i = x.countedGood)) ∧
    (∀ target wait, due s.now wait = true →
      (x.link.exchange = some ⟨target, .boot, some wait⟩ →
        ∃ t u : State, exec (.rateExchangeWaitExpiry i) s = .next t ∧ t = u.slotWork i ∧
          keepsBut [.uplink, .slots] s u ∧ slotsBut (· = i) s u ∧ onlyNotices s u [i] ∧ u.slot i = ready x) ∧
      (x.link.exchange = some ⟨target, .stepDown, some wait⟩ →
        ∃ t, exec (.rateExchangeWaitExpiry i) s = .next t ∧ onlySlot s t i ∧ refusesDeferred s t i ∧
          releasesReferences s t (· == i) ∧
          t.slot i = x.faulted .linkLost (BitVec.ofNat 16 target) s.now s.noticeMask))

/-- A good frame is counted and then handled by its kind and the slot's state (R54). A RESULT ends the transaction of a BUSY
or STREAMING slot, reported unless it is an orphan's (R50, R140), and the abort of an ABORTING one, unreported (R52); a
STREAM_CREDIT joins a stream's credit, saturating at 8 (R138); a TEXT joins the ring, whose oldest bytes it may overwrite,
and raises TEXT when the ring was empty (R159, R160), also before the HELLO, whatever its seq (R37). Elsewhere the frame is
discarded. The slot engine then goes on with its own work. The receiver puts a frame together byte by byte (R33): hunting,
it discards every byte but 0xC3; within a frame it collects the bytes and restarts its 2 ms stall timer (R101); a frame that
is complete with the CRC-16 it carries is taken as the command of its kind. (That RAW_BYTE_RECEIVED brings these bytes is
log 16.) -/
def Obligations.GoodFramesAreHandledByState : Prop :=
  ∀ (i : SlotId) (s : State), (s.slot i).state.framed = true →
    let x := s.slot i
    let within := fun bytes : List Byte => ({ x with link := { x.link with receiver := .withinFrame bytes ⟨s.now, 2⟩ } } : Slot)
    let y := x.countedGood
    let withText := fun (z : Slot) (payload : List Byte) =>
      let w : Slot :=
        { z with
          ring := (x.ring ++ payload).drop (x.ring.length + payload.length - 2048)
          wrapped := x.wrapped || decide (2048 < x.ring.length + payload.length) }
      if x.ring = [] then w.raised .text s.noticeMask else w
    (x.link.awaitingHello = false →
      (∀ (cls : ResultClass) (service : Byte) (payload : List Byte), service.toNat = cls.code → payload.length ≤ 240 →
        ∃ t u : State, exec (.result i x.link.expected service payload) s = .next t ∧ t = u.slotWork i ∧
          keepsBut [.images, .slots] s u ∧ slotsBut (· = i) s u ∧
          (if x.state = .busy ∨ x.state = .streaming then
            releasesReferences s u (· == i) ∧
              u.slot i =
                { y with
                  state := .ready, inFlight := none
                  reports :=
                    x.reports ++
                      match x.inFlight.bind (·.owner) with
                      | some tag => [⟨tag, .result s.now cls payload⟩]
                      | none => [] }
          else if x.state = .aborting then
            releasesReferences s u (· == i) ∧ u.slot i = { y with state := .ready, inFlight := none, abortWait := none }
          else u.images = s.images ∧ u.slot i = y)) ∧
      (∀ (service increment : Byte), increment ≠ 0 →
        ∃ t u : State, exec (.streamCredit i x.link.expected service [increment]) s = .next t ∧ t = u.slotWork i ∧
          keepsBut [.slots] s u ∧ slotsBut (· = i) s u ∧
          u.slot i =
            if x.state = .streaming then y.modStream fun r => { r with credit := min (r.credit + increment.toNat) 8 }
            else y) ∧
      ∀ (service : Byte) (payload : List Byte), 1 ≤ payload.length → payload.length ≤ 240 → x.ring.length ≤ 2048 →
        ∃ t u : State, exec (.text i x.link.expected service payload) s = .next t ∧ t = u.slotWork i ∧
          keepsBut [.uplink, .slots] s u ∧ slotsBut (· = i) s u ∧ onlyNotices s u [i] ∧ u.slot i = withText y payload) ∧
    (x.link.awaitingHello = true →
      ∀ (seq service : Byte) (payload : List Byte), 1 ≤ payload.length → payload.length ≤ 240 → x.ring.length ≤ 2048 →
        ∃ t, exec (.text i seq service payload) s = .next t ∧ keepsBut [.uplink, .slots] s t ∧ slotsBut (· = i) s t ∧
          onlyNotices s t [i] ∧
          t.slot i = withText { x with link := { x.link with receiver := .hunting } } payload) ∧
    (x.link.receiver = .hunting →
      (∀ byte : Byte, byte ≠ 0xC3 → exec (.rawByteReceived i byte) s = .next s) ∧
        ∃ t, exec (.rawByteReceived i 0xC3) s = .next t ∧ keepsBut [.slots] s t ∧ slotsBut (· = i) s t ∧
          t.slot i = within []) ∧
    ∀ (bytes : List Byte) (stall : Timer) (byte : Byte), x.link.receiver = .withinFrame bytes stall →
      let taken := bytes ++ [byte]
      let length := fromLittleEndian ((taken.drop 3).take 2)
      (taken.length < 5 ∨ (length ≤ 516 ∧ taken.length < length + 7) →
        ∃ t, exec (.rawByteReceived i byte) s = .next t ∧ keepsBut [.slots] s t ∧ slotsBut (· = i) s t ∧
          t.slot i = within taken) ∧
      ∀ f : Frame, f.payload.length ≤ 516 → frameBytes f = 0xC3 :: taken →
        exec (.rawByteReceived i byte) s =
          exec
            (if f.kind = 0x01 then .hello i false f.seq f.service f.payload
              else if f.kind = 0x03 then .linkAck i f.seq f.service f.payload
              else if f.kind = 0x05 then .result i f.seq f.service f.payload
              else if f.kind = 0x07 then .text i f.seq f.service f.payload
              else if f.kind = 0x09 then .streamCredit i f.seq f.service f.payload
              else .formatError i f)
            s

/-- Link errors after the HELLO (R32, R33, R36, R45): a sequence error resets the expected value and costs 12, a format
error of a frame that is no HELLO raises the expected value and costs 8, a format error of a HELLO and a CRC error cost 8. A
LINK_ACK, RESULT, TEXT or STREAM_CREDIT with the expected seq is a format error when its payload or its result class is
outside R32. CRC errors are a frame whose CRC differs, a length over 516, and a stall, 2 ms after the last byte of a frame
partly received (R33, R101). A score that reaches 0 is a LINK_DEGRADED fault with the rate index (R46), where an OPEN_BRIDGE
that waits on the slot is refused WRONG_STATE (R42, R162), at once (log 18; behind a notice as log 11 says); a score of 16
or below at a rate above 0 sets the step-down mark (R47). Before the HELLO they have no effect but that the receiver hunts
again; so every LINK_ACK, RESULT and STREAM_CREDIT, and a TEXT that is empty or longer than 240, is discarded then (R37).
The HELLO detector discards a HELLO of another seq or length (R38). In a state that is not framed no frame and no error has
an effect (R38). (That a sender brings a frame whole or byte by byte is log 16.) -/
def Obligations.LinkErrorsLowerTheScore : Prop :=
  ∀ (i : SlotId) (s : State),
    let x := s.slot i
    let hunting : Slot := { x with link := { x.link with receiver := .hunting } }
    let isCrcError := fun c : Instr =>
      c = .crcError i ∨
        (∃ bytes stall, c = .receiverStallExpiry i ∧ x.link.receiver = .withinFrame bytes stall ∧ due s.now stall = true) ∨
        ∃ bytes stall byte, c = .rawByteReceived i byte ∧ x.link.receiver = .withinFrame bytes stall ∧
          let taken := bytes ++ [byte]
          let length := fromLittleEndian ((taken.drop 3).take 2)
          (taken.length = 5 ∧ 516 < length) ∨
            (length ≤ 516 ∧ taken.length = length + 7 ∧
              (crc16 (taken.take (length + 5))).toNat ≠ fromLittleEndian (taken.drop (length + 5)))
    let isMisshapen := fun (c : Instr) (isSeq : Byte → Prop) =>
      ∃ seq service payload, isSeq seq ∧
        ((c = .linkAck i seq service payload ∧ (payload.length ≠ 1 ∨ 4 < (byteAt payload 0).toNat)) ∨
          (c = .result i seq service payload ∧
            (240 < payload.length ∨ ∀ cls : ResultClass, service.toNat ≠ cls.code)) ∨
          (c = .text i seq service payload ∧ (payload.length = 0 ∨ 240 < payload.length)) ∨
          (c = .streamCredit i seq service payload ∧ (payload.length ≠ 1 ∨ byteAt payload 0 = 0)) ∨
          ∃ f : Frame, c = .formatError i f ∧ frameWellFormed f = false ∧ f.kind ≠ 0x01 ∧ f.seq = seq)
    let isBadHello := fun c : Instr =>
      (∃ detector seq service payload, c = .hello i detector seq service payload ∧ (seq ≠ 0 ∨ payload.length ≠ 5) ∧
          (detector = false ∨ x.link.rate = 0)) ∨
        ∃ f : Frame, c = .formatError i f ∧ f.kind = 0x01 ∧ frameWellFormed f = false
    (x.state.framed = true → x.link.awaitingHello = false →
      ∀ (c : Instr) (expected : Byte) (loss : Nat),
        ((∃ seq : Byte, seq ≠ x.link.expected ∧ expected = seq + 1 ∧ loss = 12 ∧
            (c = .sequenceErrorFrame i seq ∨ (∃ service payload, c = .linkAck i seq service payload) ∨
              (∃ service payload, c = .result i seq service payload) ∨
              (∃ service payload, c = .text i seq service payload) ∨
              (∃ service payload, c = .streamCredit i seq service payload) ∨
              ∃ f : Frame, c = .formatError i f ∧ frameWellFormed f = false ∧ f.kind ≠ 0x01 ∧ f.seq = seq)) ∨
          (isMisshapen c (· = x.link.expected) ∧ expected = x.link.expected + 1 ∧ loss = 8) ∨
          ((isBadHello c ∨ isCrcError c) ∧ expected = x.link.expected ∧ loss = 8)) →
        (x.link.score ≤ loss →
          ∃ t, exec c s = .next t ∧ onlySlot s t i ∧ refusesDeferred s t i ∧ releasesReferences s t (· == i) ∧
            t.slot i = x.faulted .linkDegraded (BitVec.ofNat 16 x.link.rate) s.now s.noticeMask) ∧
          (loss < x.link.score →
            ∃ t u : State, exec c s = .next t ∧ t = u.slotWork i ∧ keepsBut [.slots] s u ∧ slotsBut (· = i) s u ∧
              u.slot i = x.counted expected (x.link.score - loss))) ∧
    (x.state.framed = true → x.link.awaitingHello = true →
      ∀ c : Instr,
        (isMisshapen c (fun _ => True) ∨ isBadHello c ∨ isCrcError c ∨ (∃ seq, c = .sequenceErrorFrame i seq) ∨
          ∃ seq service payload,
            c = .linkAck i seq service payload ∨ c = .result i seq service payload ∨
              c = .streamCredit i seq service payload) →
        ∃ t, exec c s = .next t ∧ keepsBut [.slots] s t ∧ slotsBut (· = i) s t ∧ t.slot i = hunting) ∧
    (0 < x.link.rate →
      ∀ (seq service : Byte) (payload : List Byte), seq ≠ 0 ∨ payload.length ≠ 5 →
        exec (.hello i true seq service payload) s = .next s) ∧
    (x.state.framed = false →
      ∀ c : Instr,
        ((∃ detector seq service payload, c = .hello i detector seq service payload) ∨
          (∃ seq service payload,
            c = .linkAck i seq service payload ∨ c = .result i seq service payload ∨ c = .text i seq service payload ∨
              c = .streamCredit i seq service payload) ∨
          (∃ f, c = .formatError i f) ∨ (∃ seq, c = .sequenceErrorFrame i seq) ∨ c = .crcError i ∨
          c = .receiverStallExpiry i) →
        exec c s = .next s)

/-- The transmitter (R34, R35): a raised frame waits while a frame is on the line, and else is sent with the transmit
counter's value, which rises by 1; when the frame on the line has ended, the oldest waiting frame is begun. (A
DIRECTIVE or BRIDGE_ENTER, whose last byte is no command, leaves the line after the steps of the time base that its bytes
take: log 10.) The last byte of a frame starts what the rules give it: a LINK the
exchange's 50 ms wait (R42), an ABORT the abort wait of 200 ms (R51, R112), a STREAM_OPEN the sending phase (R136), a
STREAM_DATA adds its image bytes to the bytes sent and after the last chunk closes the stream (R139). A frame of the same
kind that still waits takes that effect with it (log 28); with no such frame on the line nothing changes (log 1). -/
def Obligations.FramesLeaveInOrder : Prop :=
  (∀ (x : Slot) (kind service : Byte) (payload : List Byte) (f : RaisedFrame) (rest : List RaisedFrame),
    let rate := [500000, 1000000, 3000000, 6000000, 12000000].getD x.link.rate 12000000
    let begun := fun (f : RaisedFrame) (rest : List RaisedFrame) =>
      ({ x with
          tx :=
            { sending := some ⟨f.kind, x.link.txCounter, f.service, f.payload⟩, waiting := rest, breaking := none
              left := if f.kind = 0x04 ∨ f.kind = 0x0B then ((f.payload.length + 8) * 10000 + rate - 1) / rate else 0 }
          link := { x.link with txCounter := x.link.txCounter + 1 } } : Slot)
    (x.tx.free = true ↔ x.tx.sending = none ∧ x.tx.breaking = none) ∧
    (x.tx.free = false →
      x.raiseFrame kind service payload =
        { x with tx := { x.tx with waiting := x.tx.waiting ++ [⟨kind, service, payload⟩] } }) ∧
    (x.tx.free = true → x.tx.waiting = [] → x.raiseFrame kind service payload = begun ⟨kind, service, payload⟩ []) ∧
    (x.tx.breaking = none → x.tx.waiting = f :: rest → x.frameEnded = begun f rest) ∧
    (x.tx.breaking = none → x.tx.waiting = [] → x.frameEnded = { x with tx := ⟨none, [], none, 0⟩ }) ∧
    (x.tx.breaking ≠ none → x.frameEnded = { x with tx := { x.tx with sending := none, left := 0 } })) ∧
  ∀ (i : SlotId) (s : State),
    let x := s.slot i
    ∀ (c : Instr) (kind : Byte) (y : Slot),
      ((c = .linkFrameSent i ∧ kind = 0x02 ∧
          y =
            { x with
              link := { x.link with exchange := x.link.exchange.map fun e => { e with wait := some ⟨s.now, 50⟩ } } }) ∨
        (c = .abortFrameSent i ∧ kind = 0x06 ∧
          y = if x.state = .aborting then { x with abortWait := some ⟨s.now, 200⟩ } else x) ∨
        (c = .streamOpenSent i ∧ kind = 0x08 ∧
          y = x.modStream fun r => if x.state = .streaming ∧ r.phase = .opening then { r with phase := .sending } else r) ∨
        (c = .streamDataSent i ∧ kind = 0x0A ∧
          y =
            x.modStream fun r =>
              if x.state = .streaming ∧ r.phase = .sending then
                { r with
                  bytesSent := r.bytesSent + ((x.tx.sending.map fun f => f.payload.length).getD 4 - 4)
                  phase := if r.nextChunk = (r.length + 511) / 512 then .closing else .sending }
              else r)) →
      (∀ f : Frame, x.tx.sending = some f → f.kind = kind →
        ∃ t u : State, exec c s = .next t ∧ t = u.slotWork i ∧ keepsBut [.slots] s u ∧ slotsBut (· = i) s u ∧
          u.slot i = Slot.frameEnded (if x.tx.waiting.any (fun w => w.kind == kind) then x else y)) ∧
        ((∀ f : Frame, x.tx.sending = some f → f.kind ≠ kind) → exec c s = .next s)

/-! ### The work of a slot engine -/

/-- What the slot engine does of itself in READY (R15): with an exchange in progress or an empty queue nothing; a step-down
that is due first (R44, R48); else it takes the head entry, computes its window (R103, R104, R105), translates its service
(R67) and reports the start (R79). A directive makes the slot BUSY with a DIRECTIVE frame (R49). A push of an image that is
READY in the accepted generation makes it STREAMING with a STREAM_OPEN, and holds a reference (R136); of any other image it
is started and stopped at once (R137). The store arbiter then grants what waits (log 9). How long a DIRECTIVE occupies the
line is log 10. -/
def Obligations.ReadySlotTakesItsHeadEntry : Prop :=
  ∀ (i : SlotId) (s : State), (s.slot i).state = .ready →
    let x := s.slot i
    let rate := [500000, 1000000, 3000000, 6000000, 12000000].getD x.link.rate 12000000
    ∃ v : State, s.slotWork i = v.grant ∧ keepsBut [.images, .slots] s v ∧ slotsBut (· = i) s v ∧
      (x.link.exchange ≠ none → v = s) ∧
      (x.link.exchange = none → x.link.stepDownMark = true → 0 < x.link.rate →
        v.images = s.images ∧
          v.slot i =
            Slot.raiseFrame { x with link := { x.link with exchange := some ⟨x.link.rate - 1, .stepDown, none⟩ } } 0x02 0
              [BitVec.ofNat 8 (x.link.rate - 1)]) ∧
      (x.link.exchange = none → x.link.stepDownMark = false ∨ x.link.rate = 0 →
        (x.queue = [] → v = s) ∧
        ∀ (tag : Tag) (service : Byte) (accepted : Count) (timeout : Nat) (work : Work) (rest : List QueueEntry),
          x.queue = ⟨tag, service, accepted, timeout, work⟩ :: rest →
          let agentService := ((x.translation.find? fun p => p.1 == service).map fun p => p.2).getD service
          (∀ payload, work = .directive payload →
            let window := timeout + ((payload.length + 256) * 10000 + rate - 1) / rate
            v.images = s.images ∧
              v.slot i =
                { Slot.raiseFrame
                    { x with
                      queue := rest, state := .busy, inFlight := some ⟨some tag, some ⟨s.now, window⟩, .directive⟩ }
                    0x04 agentService payload with
                  reports := x.reports ++ [⟨tag, .start s.now window⟩] }) ∧
          ∀ (k : ImageId) (generation : Half) (length : Nat) (crc : Word), work = .push k generation length crc →
            let chunks := (length + 511) / 512
            let window := min (timeout + ((length + 12 * chunks + 276) * 10000 + rate - 1) / rate) 1800000
            let started := fun held : Bool =>
              { Slot.raiseFrame
                  { x with
                    queue := rest, state := .streaming
                    inFlight :=
                      some
                        ⟨some tag, some ⟨s.now, window⟩,
                          .stream ⟨k, generation, length, crc, held, 0, 0, 0, .none, .opening⟩⟩ }
                  0x08 agentService
                  (toLittleEndian 4 length ++ toLittleEndian 4 crc.toNat ++ [0x00, 0x02] ++ toLittleEndian 2 chunks) with
                reports := x.reports ++ [⟨tag, .start s.now window⟩] }
            if (s.image k).state = .ready ∧ (s.image k).generation = generation then
              v.slot i = started true ∧
                ∀ l,
                  v.image l =
                    if l = k then
                      { s.image k with
                        fields := { (s.image k).fields with references := (s.image k).fields.references + 1 } }
                    else s.image l
            else
              v.images = s.images ∧
                v.slot i =
                  { (started false).abortingFrom with
                    reports := x.reports ++ [⟨tag, .start s.now window⟩, ⟨tag, .streamDamage⟩] })

/-- What the slot engine does of itself in STREAMING: with an exchange in progress nothing; a step-down that is due starts
when no STREAM_OPEN or STREAM_DATA is being sent (R48); else a held chunk is sent when the transmitter is free, which takes 1
of the credit and raises the next chunk index, and the next chunk's block is asked of the store arbiter while credit is left
(R139). After a read that met an uncorrectable word the stream waits for its damage stop (log 27); that a STREAM_OPEN which
still waits is no chunk boundary either is log 31. That the clear/verify engine had the store to itself until then is kept,
and the store arbiter then grants what waits (log 9). In the other states the slot engine has no work of its own. -/
def Obligations.StreamSendsChunkByChunk : Prop :=
  ∀ (i : SlotId) (s : State),
    let x := s.slot i
    (x.state ≠ .ready → x.state ≠ .streaming → s.slotWork i = s.grant) ∧
    ∀ r : StreamRecord, x.state = .streaming → x.stream = some r →
      let stepsDown :=
        x.link.stepDownMark = true ∧ 0 < x.link.rate ∧ (∀ f, x.tx.sending = some f → f.kind ≠ 0x08 ∧ f.kind ≠ 0x0A) ∧
          ∀ f ∈ x.tx.waiting, f.kind ≠ 0x08
      let asks := fun q : StreamRecord =>
        if q.phase = .sending ∧ 0 < q.credit ∧ q.nextChunk < (q.length + 511) / 512 then { q with read := .waiting } else q
      ∃ v : State, s.slotWork i = v.grant ∧ keepsBut [.arbiter, .slots] s v ∧ slotsBut (· = i) s v ∧
        v.arbiterPointer = s.arbiterPointer ∧ v.granted = s.granted ∧
        (x.link.exchange ≠ none → v = s) ∧
        (x.link.exchange = none → stepsDown → v.engineAlone = s.engineAlone ∧
          v.slot i =
            Slot.raiseFrame { x with link := { x.link with exchange := some ⟨x.link.rate - 1, .stepDown, none⟩ } } 0x02 0
              [BitVec.ofNat 8 (x.link.rate - 1)]) ∧
        (x.link.exchange = none → ¬ stepsDown →
          (v.engineAlone = true ↔
            s.engineAlone = true ∨ (s.granted = some .engine ∧ ∀ p, p ≠ 1 → s.storeRequest p = none)) ∧
          (∀ data, r.read = .held data →
            v.slot i =
              if r.phase = .sending ∧ x.tx.free = true ∧ x.tx.waiting = [] then
                (x.raiseFrame 0x0A 0 (toLittleEndian 4 r.nextChunk ++ data)).modStream fun q =>
                  asks { q with credit := q.credit - 1, nextChunk := q.nextChunk + 1, read := .none }
              else x) ∧
          (r.read = .none → v.slot i = x.modStream asks) ∧
          ((r.read = .waiting ∨ r.read = .granted ∨ r.read = .failed) → v.slot i = x))

/-- What ends a member from inside the device. A damage stop stops a stream that holds its image in its generation, and
nothing else (R142); a member window that is due in BUSY or STREAMING is reported for a named member (R82, R107). Both enter
ABORTING (R51): the reference released, the window stopped, an exchange abandoned, an ABORT raised. The first entry from
the head whose queue limit is due leaves the queue and is reported (R109). With none due nothing changes (log 1). -/
def Obligations.DeadlinesEndMembers : Prop :=
  ∀ (i : SlotId) (s : State),
    let x := s.slot i
    let aborts := fun (t : State) (y : Slot) (body : ReportBody) =>
      keepsBut [.images, .slots] s t ∧ slotsBut (· = i) s t ∧ releasesReferences s t (· == i) ∧
        t.slot i =
          Slot.abortingFrom
            (Slot.released
              { y with
                reports :=
                  x.reports ++
                    match x.inFlight.bind (·.owner) with
                    | some tag => [⟨tag, body⟩]
                    | none => [] })
    (∀ (d : DamageStop) (rest : List DamageStop), x.damageStops = d :: rest →
      let streams := x.state = .streaming ∧
        ∃ r, x.stream = some r ∧ r.referenceHeld = true ∧ r.image = d.image ∧ r.generation = d.generation
      (streams → ∃ t, exec (.damageStop i) s = .next t ∧ aborts t { x with damageStops := rest } .streamDamage) ∧
        (¬ streams →
          ∃ t, exec (.damageStop i) s = .next t ∧ keepsBut [.slots] s t ∧ slotsBut (· = i) s t ∧
            t.slot i = { x with damageStops := rest })) ∧
    (∀ f : InFlight, x.inFlight = some f →
      ((x.state = .busy ∨ x.state = .streaming) ∧ dueSome s.now f.window = true →
        ∃ t, exec (.memberWindowExpiry i) s = .next t ∧ aborts t x .windowExpiry) ∧
        (¬ ((x.state = .busy ∨ x.state = .streaming) ∧ dueSome s.now f.window = true) →
          exec (.memberWindowExpiry i) s = .next s)) ∧
    (∀ (front : List QueueEntry) (e : QueueEntry) (back : List QueueEntry), x.queue = front ++ e :: back →
      due s.now ⟨e.accepted, e.timeout⟩ = true → (∀ q ∈ front, due s.now ⟨q.accepted, q.timeout⟩ = false) →
      ∃ t u : State, exec (.queueLimitExpiry i) s = .next t ∧ t = u.slotWork i ∧ keepsBut [.slots] s u ∧
        slotsBut (· = i) s u ∧
        u.slot i = { x with queue := front ++ back, reports := x.reports ++ [⟨e.tag, .queueLimit⟩] }) ∧
    ((∀ q ∈ x.queue, due s.now ⟨q.accepted, q.timeout⟩ = false) → exec (.queueLimitExpiry i) s = .next s)

/-! ### Current supervision -/

/-- A current sample of a slot whose VBUS is on, which owes one (log 3): it reads at most 4,000 mA and joins the history of
the 1,000 latest (R147). With the trip clear, a full-scale sample sets the trip to SHORT and sends a fault request with
detail 4,000 (R148); any other sample that is not blanked (R146) moves the accumulator by its excess over current_limit_ma,
not below 0, and one that brings it to trip_budget or above trips with OVERCURRENT and the sample as detail (R149, R150);
with the trip set nothing else changes (R151). (How the model tells a blanked sample is log 13.) -/
def Obligations.SamplesFeedTheTripAccumulator : Prop :=
  ∀ (i : SlotId) (milliamps : Nat) (start : Count) (s : State),
    let x := s.slot i
    x.power.vbus = true → x.power.sampleDue = true → x.power.periodStart = some start →
    let v := min milliamps 4000
    let history := (x.power.history ++ [v]).drop (x.power.history.length - 999)
    let blanked := (s.now - start).toNat ≤ x.power.blankLength ∧ x.power.history.length < 1000
    let sum := x.power.accumulator + v - x.profile.currentLimit
    let kept : PowerRecord := { x.power with history := history, sampleDue := false }
    ∃ t, exec (.currentSample i milliamps) s = .next t ∧ keepsBut [.slots] s t ∧ slotsBut (· = i) s t ∧
      t.slot i =
        if x.power.trip ≠ .clear then { x with power := kept }
        else if v = 4000 then
          { x with
            power := { kept with trip := .short }
            faultRequests := x.faultRequests ++ [⟨.short, 4000, x.power.period⟩] }
        else if blanked then { x with power := kept }
        else if x.profile.tripBudget ≤ sum then
          { x with
            power := { kept with accumulator := x.profile.tripBudget, trip := .overcurrent }
            faultRequests := x.faultRequests ++ [⟨.overcurrent, BitVec.ofNat 16 v, x.power.period⟩] }
        else { x with power := { kept with accumulator := sum } }

/-- A fault request of the power block, by the slot's state when it is taken (R17, R152): in a powered state of the request's
period the slot enters FAULT with its cause and detail and the time it is taken (an OPEN_BRIDGE that waits on the slot then
is in OpenBridgeEntersBridge); in FAULT, entered in that period, the
further-faults count rises by 1, saturating at 255 (R19); in any other case it is discarded. -/
def Obligations.FaultRequestsBelongToTheirPeriod : Prop :=
  ∀ (i : SlotId) (r : FaultRequest) (rest : List FaultRequest) (s : State),
    let x := s.slot i
    x.faultRequests = r :: rest →
    let y : Slot := { x with faultRequests := rest }
    (x.state.powered = true → x.power.period = r.period →
      ∃ t, exec (.faultRequest i) s = .next t ∧ onlySlot s t i ∧ releasesReferences s t (· == i) ∧
        t.slot i = y.faulted r.cause r.detail s.now s.noticeMask) ∧
    (¬ (x.state.powered = true ∧ x.power.period = r.period) →
      ∃ t, exec (.faultRequest i) s = .next t ∧ keepsBut [.slots] s t ∧ slotsBut (· = i) s t ∧
        t.slot i =
          if x.state = .fault ∧ x.faultPeriod = some r.period then
            { y with faultRecord := x.faultRecord.map fun q => { q with further := min (q.further + 1) 255 } }
          else y)

/-! ### Invariants of every step -/

/-- Every step keeps the slots sound: VBUS on exactly in the powered states, INHIBITED exactly with the drawer open or the
disable flag set, every field in its range, and the in-flight record, the stream, the exchange and the bridge in the states
that have them. -/
def Obligations.StepKeepsSlotsSound : Prop := ∀ s t : State, s.slotsSound → step s = .next t → t.slotsSound

/-- Every step keeps the Operation Table sound: distinct tags, counts that are the members', reservations within the gather
memory, and one report in the uplink for each REPORTING entry. -/
def Obligations.StepKeepsOperationsSound : Prop := ∀ s t : State, s.operationsSound → step s = .next t → t.operationsSound

/-- Every step keeps the Image Table and the image store sound: windows that share no unit, reference counts that are the
numbers of streams that hold an image, a job list that is the images', a store in canonical form, with its lost bits (log 7,
log 8). That the slots are sound is StepKeepsSlotsSound. -/
def Obligations.StepKeepsImagesSound : Prop :=
  ∀ s t : State, s.slotsSound → s.imagesSound → step s = .next t → t.imagesSound

/-- Every step keeps the uplink sound: at most eight receipts with a place for the request in progress, one notice and one
BRIDGE_OUT for each slot that waits for one, and none for the others. A notice on the pipe is held as log 11 says. -/
def Obligations.StepKeepsUplinkSound : Prop := ∀ s t : State, s.uplinkSound → step s = .next t → t.uplinkSound

end Statements
end

