-- ==== Sys2Proof/Laws/State.lean ====
section
/-! SUPPORT. One lemma per field of `State` for each named update, and reading back what was written. -/

namespace Sys2Proof.Machine

/-! ### Writing a slot -/

@[simp] theorem State.setSlot_pending (s : State) (i : SlotId) (x : Slot) : (s.setSlot i x).pending = s.pending := rfl
@[simp] theorem State.setSlot_now (s : State) (i : SlotId) (x : Slot) : (s.setSlot i x).now = s.now := rfl
@[simp] theorem State.setSlot_straps (s : State) (i : SlotId) (x : Slot) : (s.setSlot i x).straps = s.straps := rfl
@[simp] theorem State.setSlot_port (s : State) (i : SlotId) (x : Slot) : (s.setSlot i x).port = s.port := rfl
@[simp] theorem State.setSlot_uplink (s : State) (i : SlotId) (x : Slot) : (s.setSlot i x).uplink = s.uplink := rfl
@[simp] theorem State.setSlot_groups (s : State) (i : SlotId) (x : Slot) : (s.setSlot i x).groups = s.groups := rfl
@[simp] theorem State.setSlot_fixture (s : State) (i : SlotId) (x : Slot) : (s.setSlot i x).fixture = s.fixture := rfl
@[simp] theorem State.setSlot_ops (s : State) (i : SlotId) (x : Slot) : (s.setSlot i x).ops = s.ops := rfl
@[simp] theorem State.setSlot_images (s : State) (i : SlotId) (x : Slot) : (s.setSlot i x).images = s.images := rfl
@[simp] theorem State.setSlot_store (s : State) (i : SlotId) (x : Slot) : (s.setSlot i x).store = s.store := rfl
@[simp] theorem State.setSlot_lostBits (s : State) (i : SlotId) (x : Slot) : (s.setSlot i x).lostBits = s.lostBits := rfl
@[simp] theorem State.setSlot_jobs (s : State) (i : SlotId) (x : Slot) : (s.setSlot i x).jobs = s.jobs := rfl
@[simp] theorem State.setSlot_engineBlocks (s : State) (i : SlotId) (x : Slot) : (s.setSlot i x).engineBlocks = s.engineBlocks := rfl
@[simp] theorem State.setSlot_engineAlone (s : State) (i : SlotId) (x : Slot) : (s.setSlot i x).engineAlone = s.engineAlone := rfl
@[simp] theorem State.setSlot_arbiterPointer (s : State) (i : SlotId) (x : Slot) : (s.setSlot i x).arbiterPointer = s.arbiterPointer := rfl
@[simp] theorem State.setSlot_granted (s : State) (i : SlotId) (x : Slot) : (s.setSlot i x).granted = s.granted := rfl
@[simp] theorem State.setSlot_interlockA (s : State) (i : SlotId) (x : Slot) : (s.setSlot i x).interlockA = s.interlockA := rfl
@[simp] theorem State.setSlot_interlockB (s : State) (i : SlotId) (x : Slot) : (s.setSlot i x).interlockB = s.interlockB := rfl
@[simp] theorem State.setSlot_noticeMask (s : State) (i : SlotId) (x : Slot) : (s.setSlot i x).noticeMask = s.noticeMask := rfl

/-! ### Changing a slot -/

@[simp] theorem State.modSlot_pending (s : State) (i : SlotId) (f : Slot → Slot) : (s.modSlot i f).pending = s.pending := rfl
@[simp] theorem State.modSlot_now (s : State) (i : SlotId) (f : Slot → Slot) : (s.modSlot i f).now = s.now := rfl
@[simp] theorem State.modSlot_straps (s : State) (i : SlotId) (f : Slot → Slot) : (s.modSlot i f).straps = s.straps := rfl
@[simp] theorem State.modSlot_port (s : State) (i : SlotId) (f : Slot → Slot) : (s.modSlot i f).port = s.port := rfl
@[simp] theorem State.modSlot_uplink (s : State) (i : SlotId) (f : Slot → Slot) : (s.modSlot i f).uplink = s.uplink := rfl
@[simp] theorem State.modSlot_groups (s : State) (i : SlotId) (f : Slot → Slot) : (s.modSlot i f).groups = s.groups := rfl
@[simp] theorem State.modSlot_fixture (s : State) (i : SlotId) (f : Slot → Slot) : (s.modSlot i f).fixture = s.fixture := rfl
@[simp] theorem State.modSlot_ops (s : State) (i : SlotId) (f : Slot → Slot) : (s.modSlot i f).ops = s.ops := rfl
@[simp] theorem State.modSlot_images (s : State) (i : SlotId) (f : Slot → Slot) : (s.modSlot i f).images = s.images := rfl
@[simp] theorem State.modSlot_store (s : State) (i : SlotId) (f : Slot → Slot) : (s.modSlot i f).store = s.store := rfl
@[simp] theorem State.modSlot_lostBits (s : State) (i : SlotId) (f : Slot → Slot) : (s.modSlot i f).lostBits = s.lostBits := rfl
@[simp] theorem State.modSlot_jobs (s : State) (i : SlotId) (f : Slot → Slot) : (s.modSlot i f).jobs = s.jobs := rfl
@[simp] theorem State.modSlot_engineBlocks (s : State) (i : SlotId) (f : Slot → Slot) : (s.modSlot i f).engineBlocks = s.engineBlocks := rfl
@[simp] theorem State.modSlot_engineAlone (s : State) (i : SlotId) (f : Slot → Slot) : (s.modSlot i f).engineAlone = s.engineAlone := rfl
@[simp] theorem State.modSlot_arbiterPointer (s : State) (i : SlotId) (f : Slot → Slot) : (s.modSlot i f).arbiterPointer = s.arbiterPointer := rfl
@[simp] theorem State.modSlot_granted (s : State) (i : SlotId) (f : Slot → Slot) : (s.modSlot i f).granted = s.granted := rfl
@[simp] theorem State.modSlot_interlockA (s : State) (i : SlotId) (f : Slot → Slot) : (s.modSlot i f).interlockA = s.interlockA := rfl
@[simp] theorem State.modSlot_interlockB (s : State) (i : SlotId) (f : Slot → Slot) : (s.modSlot i f).interlockB = s.interlockB := rfl
@[simp] theorem State.modSlot_noticeMask (s : State) (i : SlotId) (f : Slot → Slot) : (s.modSlot i f).noticeMask = s.noticeMask := rfl

/-! ### Changing an image record -/

@[simp] theorem State.modImage_pending (s : State) (k : ImageId) (f : Image → Image) : (s.modImage k f).pending = s.pending := rfl
@[simp] theorem State.modImage_now (s : State) (k : ImageId) (f : Image → Image) : (s.modImage k f).now = s.now := rfl
@[simp] theorem State.modImage_straps (s : State) (k : ImageId) (f : Image → Image) : (s.modImage k f).straps = s.straps := rfl
@[simp] theorem State.modImage_port (s : State) (k : ImageId) (f : Image → Image) : (s.modImage k f).port = s.port := rfl
@[simp] theorem State.modImage_uplink (s : State) (k : ImageId) (f : Image → Image) : (s.modImage k f).uplink = s.uplink := rfl
@[simp] theorem State.modImage_groups (s : State) (k : ImageId) (f : Image → Image) : (s.modImage k f).groups = s.groups := rfl
@[simp] theorem State.modImage_fixture (s : State) (k : ImageId) (f : Image → Image) : (s.modImage k f).fixture = s.fixture := rfl
@[simp] theorem State.modImage_ops (s : State) (k : ImageId) (f : Image → Image) : (s.modImage k f).ops = s.ops := rfl
@[simp] theorem State.modImage_store (s : State) (k : ImageId) (f : Image → Image) : (s.modImage k f).store = s.store := rfl
@[simp] theorem State.modImage_lostBits (s : State) (k : ImageId) (f : Image → Image) : (s.modImage k f).lostBits = s.lostBits := rfl
@[simp] theorem State.modImage_jobs (s : State) (k : ImageId) (f : Image → Image) : (s.modImage k f).jobs = s.jobs := rfl
@[simp] theorem State.modImage_engineBlocks (s : State) (k : ImageId) (f : Image → Image) : (s.modImage k f).engineBlocks = s.engineBlocks := rfl
@[simp] theorem State.modImage_engineAlone (s : State) (k : ImageId) (f : Image → Image) : (s.modImage k f).engineAlone = s.engineAlone := rfl
@[simp] theorem State.modImage_arbiterPointer (s : State) (k : ImageId) (f : Image → Image) : (s.modImage k f).arbiterPointer = s.arbiterPointer := rfl
@[simp] theorem State.modImage_granted (s : State) (k : ImageId) (f : Image → Image) : (s.modImage k f).granted = s.granted := rfl
@[simp] theorem State.modImage_interlockA (s : State) (k : ImageId) (f : Image → Image) : (s.modImage k f).interlockA = s.interlockA := rfl
@[simp] theorem State.modImage_interlockB (s : State) (k : ImageId) (f : Image → Image) : (s.modImage k f).interlockB = s.interlockB := rfl
@[simp] theorem State.modImage_noticeMask (s : State) (k : ImageId) (f : Image → Image) : (s.modImage k f).noticeMask = s.noticeMask := rfl
@[simp] theorem State.modImage_slots (s : State) (k : ImageId) (f : Image → Image) : (s.modImage k f).slots = s.slots := rfl

/-! ### Writing an interlock -/

@[simp] theorem State.setInterlock_pending (s : State) (k : Bank) (x : Interlock) : (s.setInterlock k x).pending = s.pending := by
  cases k <;> rfl
@[simp] theorem State.setInterlock_now (s : State) (k : Bank) (x : Interlock) : (s.setInterlock k x).now = s.now := by
  cases k <;> rfl
@[simp] theorem State.setInterlock_straps (s : State) (k : Bank) (x : Interlock) : (s.setInterlock k x).straps = s.straps := by
  cases k <;> rfl
@[simp] theorem State.setInterlock_port (s : State) (k : Bank) (x : Interlock) : (s.setInterlock k x).port = s.port := by
  cases k <;> rfl
@[simp] theorem State.setInterlock_uplink (s : State) (k : Bank) (x : Interlock) : (s.setInterlock k x).uplink = s.uplink := by
  cases k <;> rfl
@[simp] theorem State.setInterlock_groups (s : State) (k : Bank) (x : Interlock) : (s.setInterlock k x).groups = s.groups := by
  cases k <;> rfl
@[simp] theorem State.setInterlock_fixture (s : State) (k : Bank) (x : Interlock) : (s.setInterlock k x).fixture = s.fixture := by
  cases k <;> rfl
@[simp] theorem State.setInterlock_ops (s : State) (k : Bank) (x : Interlock) : (s.setInterlock k x).ops = s.ops := by
  cases k <;> rfl
@[simp] theorem State.setInterlock_images (s : State) (k : Bank) (x : Interlock) : (s.setInterlock k x).images = s.images := by
  cases k <;> rfl
@[simp] theorem State.setInterlock_store (s : State) (k : Bank) (x : Interlock) : (s.setInterlock k x).store = s.store := by
  cases k <;> rfl
@[simp] theorem State.setInterlock_lostBits (s : State) (k : Bank) (x : Interlock) : (s.setInterlock k x).lostBits = s.lostBits := by
  cases k <;> rfl
@[simp] theorem State.setInterlock_jobs (s : State) (k : Bank) (x : Interlock) : (s.setInterlock k x).jobs = s.jobs := by
  cases k <;> rfl
@[simp] theorem State.setInterlock_engineBlocks (s : State) (k : Bank) (x : Interlock) : (s.setInterlock k x).engineBlocks = s.engineBlocks := by
  cases k <;> rfl
@[simp] theorem State.setInterlock_engineAlone (s : State) (k : Bank) (x : Interlock) : (s.setInterlock k x).engineAlone = s.engineAlone := by
  cases k <;> rfl
@[simp] theorem State.setInterlock_arbiterPointer (s : State) (k : Bank) (x : Interlock) : (s.setInterlock k x).arbiterPointer = s.arbiterPointer := by
  cases k <;> rfl
@[simp] theorem State.setInterlock_granted (s : State) (k : Bank) (x : Interlock) : (s.setInterlock k x).granted = s.granted := by
  cases k <;> rfl
@[simp] theorem State.setInterlock_noticeMask (s : State) (k : Bank) (x : Interlock) : (s.setInterlock k x).noticeMask = s.noticeMask := by
  cases k <;> rfl
@[simp] theorem State.setInterlock_slots (s : State) (k : Bank) (x : Interlock) : (s.setInterlock k x).slots = s.slots := by
  cases k <;> rfl

/-! ### Reading back -/

@[simp] theorem State.slot_setSlot_same (s : State) (i : SlotId) (x : Slot) : (s.setSlot i x).slot i = x :=
  Vector.getElem_set_self i.isLt

theorem State.slot_setSlot_ne (s : State) {i j : SlotId} (x : Slot) (h : j ≠ i) : (s.setSlot i x).slot j = s.slot j :=
  Vector.getElem_set_ne i.isLt j.isLt fun e => h (Fin.ext e.symm)

@[simp] theorem State.slot_modSlot_same (s : State) (i : SlotId) (f : Slot → Slot) :
    (s.modSlot i f).slot i = f (s.slot i) := by
  simp [State.modSlot]

theorem State.slot_modSlot_ne (s : State) {i j : SlotId} (f : Slot → Slot) (h : j ≠ i) :
    (s.modSlot i f).slot j = s.slot j := by
  simp [State.modSlot, State.slot_setSlot_ne _ _ h]

/-- What any slot reads after one slot has been changed. -/
theorem State.slot_modSlot (s : State) (i j : SlotId) (f : Slot → Slot) :
    (s.modSlot i f).slot j = if j = i then f (s.slot i) else s.slot j := by
  split
  · next h => subst h; simp
  · next h => exact State.slot_modSlot_ne s f h

@[simp] theorem State.slot_modImage (s : State) (k : ImageId) (f : Image → Image) (i : SlotId) :
    (s.modImage k f).slot i = s.slot i := rfl

@[simp] theorem State.slot_setInterlock (s : State) (k : Bank) (x : Interlock) (i : SlotId) :
    (s.setInterlock k x).slot i = s.slot i := by
  cases k <;> rfl

@[simp] theorem State.image_modImage_same (s : State) (k : ImageId) (f : Image → Image) :
    (s.modImage k f).image k = f (s.image k) :=
  Vector.getElem_set_self k.isLt

theorem State.image_modImage_ne (s : State) {k l : ImageId} (f : Image → Image) (h : l ≠ k) :
    (s.modImage k f).image l = s.image l :=
  Vector.getElem_set_ne k.isLt l.isLt fun e => h (Fin.ext e.symm)

/-- What any image record reads after one has been changed. -/
theorem State.image_modImage (s : State) (k l : ImageId) (f : Image → Image) :
    (s.modImage k f).image l = if l = k then f (s.image k) else s.image l := by
  split
  · next h => subst h; simp
  · next h => exact State.image_modImage_ne s f h

@[simp] theorem State.image_modSlot (s : State) (i : SlotId) (f : Slot → Slot) (k : ImageId) :
    (s.modSlot i f).image k = s.image k := rfl

@[simp] theorem State.drawerOpen_modSlot (s : State) (i j : SlotId) (f : Slot → Slot) :
    (s.modSlot i f).drawerOpen j = s.drawerOpen j := rfl

@[simp] theorem State.drawerOpen_modImage (s : State) (k : ImageId) (f : Image → Image) (j : SlotId) :
    (s.modImage k f).drawerOpen j = s.drawerOpen j := rfl

/-- Two states with the same slots read the same slot. -/
theorem State.slot_congr {s t : State} (h : t.slots = s.slots) (i : SlotId) : t.slot i = s.slot i := by
  simp [State.slot, h]

end Sys2Proof.Machine
end

