-- ==== Sys2Proof/Laws/Frames.lean ====
section
/-! SUPPORT. What each shared operation leaves alone: the parts of the device it can change, said once. -/

namespace Sys2Proof.Machine

variable {s t u : State} {A B C : List Part}

/-! ### The relation -/

theorem keepsBut.refl (A : List Part) (s : State) : keepsBut A s s := by
  intro p _; cases p <;> first | rfl | exact ⟨rfl, rfl⟩ | exact ⟨rfl, rfl, rfl⟩

theorem keepsBut.mono (h : keepsBut A s t) (hs : A ⊆ B) : keepsBut B s t := fun p hp => h p fun ha => hp (hs ha)

theorem Part.same_trans {p : Part} (h1 : p.same s t) (h2 : p.same t u) : p.same s u := by
  cases p <;>
    first
      | exact h2.trans h1
      | exact ⟨h2.1.trans h1.1, h2.2.trans h1.2⟩
      | exact ⟨h2.1.trans h1.1, h2.2.1.trans h1.2.1, h2.2.2.trans h1.2.2⟩

theorem keepsBut.trans (h1 : keepsBut A s t) (h2 : keepsBut A t u) : keepsBut A s u :=
  fun p hp => Part.same_trans (h1 p hp) (h2 p hp)

/-- One change after another, each within a larger set. -/
theorem keepsBut.step (h1 : keepsBut C s t) (h2 : keepsBut B t u) (hs : B ⊆ C) : keepsBut C s u :=
  h1.trans (h2.mono hs)

theorem keepsBut.foldl {α : Type} (f : State → α → State) (hf : ∀ s a, keepsBut A s (f s a)) (l : List α) (s : State) :
    keepsBut A s (l.foldl f s) := by
  induction l generalizing s with
  | nil => exact keepsBut.refl A s
  | cons a l ih => exact (hf s a).trans (ih (f s a))

theorem keepsBut.queue (h : keepsBut A s t) (ha : Part.queue ∉ A) : t.pending = s.pending := h .queue ha
theorem keepsBut.time (h : keepsBut A s t) (ha : Part.time ∉ A) : t.now = s.now := h .time ha
theorem keepsBut.straps (h : keepsBut A s t) (ha : Part.straps ∉ A) : t.straps = s.straps := h .straps ha
theorem keepsBut.slots (h : keepsBut A s t) (ha : Part.slots ∉ A) : t.slots = s.slots := h .slots ha

/-! ### Slots, images, the uplink -/

theorem modSlot_keeps (s : State) (i : SlotId) (f : Slot → Slot) : keepsBut [.slots] s (s.modSlot i f) := by
  intro p hp; cases p <;> first | rfl | exact ⟨rfl, rfl⟩ | exact ⟨rfl, rfl, rfl⟩ | exact absurd (by decide) hp

theorem modImage_keeps (s : State) (k : ImageId) (f : Image → Image) : keepsBut [.images] s (s.modImage k f) := by
  intro p hp; cases p <;> first | rfl | exact ⟨rfl, rfl⟩ | exact ⟨rfl, rfl, rfl⟩ | exact absurd (by decide) hp

theorem setInterlock_keeps (s : State) (k : Bank) (x : Interlock) : keepsBut [.interlocks] s (s.setInterlock k x) := by
  intro p hp; cases k <;> cases p <;> first | rfl | exact ⟨rfl, rfl⟩ | exact ⟨rfl, rfl, rfl⟩ | exact absurd (by decide) hp

theorem withUplink_keeps (s : State) (u : Uplink) : keepsBut [.uplink] s { s with uplink := u } := by
  intro p hp; cases p <;> first | rfl | exact ⟨rfl, rfl⟩ | exact ⟨rfl, rfl, rfl⟩ | exact absurd (by decide) hp

theorem withPort_keeps (s : State) (p : Port) : keepsBut [.port] s { s with port := p } := by
  intro q hq; cases q <;> first | rfl | exact ⟨rfl, rfl⟩ | exact ⟨rfl, rfl, rfl⟩ | exact absurd (by decide) hq

theorem withOps_keeps (s : State) (l : List Operation) : keepsBut [.operations] s { s with ops := l } := by
  intro p hp; cases p <;> first | rfl | exact ⟨rfl, rfl⟩ | exact ⟨rfl, rfl, rfl⟩ | exact absurd (by decide) hp

theorem withArbiter_keeps (s : State) (g : Option Grant) (n : Fin 26) :
    keepsBut [.arbiter] s { s with granted := g, arbiterPointer := n } := by
  intro p hp; cases p <;> first | rfl | exact ⟨rfl, rfl⟩ | exact ⟨rfl, rfl, rfl⟩ | exact absurd (by decide) hp

theorem arbitrate_keeps (s : State) : keepsBut [.uplink] s s.arbitrate := by
  unfold State.arbitrate; split
  · split
    · exact withUplink_keeps s _
    · exact .refl _ s
  · exact .refl _ s

/-- Choosing a class changes what is on the pipe or may follow the notice on it, and no class of messages. -/
theorem Uplink.choose_spec (u : Uplink) (c : UplinkClass) :
    (u.choose c).receipts = u.receipts ∧ (u.choose c).gathers = u.gathers ∧ (u.choose c).bridgeOuts = u.bridgeOuts ∧
      (u.choose c).notices = u.notices ∧ (u.choose c).noticeOnPipe = u.noticeOnPipe := by
  unfold Uplink.choose; split
  · exact ⟨rfl, rfl, rfl, rfl, rfl⟩
  · split <;> exact ⟨rfl, rfl, rfl, rfl, rfl⟩

/-- The arbiter begins a message, and takes none out of its class. -/
theorem arbitrate_classes (s : State) :
    s.arbitrate.uplink.receipts = s.uplink.receipts ∧ s.arbitrate.uplink.gathers = s.uplink.gathers ∧
      s.arbitrate.uplink.bridgeOuts = s.uplink.bridgeOuts ∧ s.arbitrate.uplink.notices = s.uplink.notices ∧
      s.arbitrate.uplink.noticeOnPipe = s.uplink.noticeOnPipe := by
  unfold State.arbitrate; split
  · split
    · exact Uplink.choose_spec _ _
    · exact ⟨rfl, rfl, rfl, rfl, rfl⟩
  · exact ⟨rfl, rfl, rfl, rfl, rfl⟩

theorem answer_keeps (s : State) (tag : Tag) (kind : Byte) (result : ResultCode) (detail : Half) (reply : Reply) :
    keepsBut [.uplink] s (s.answer tag kind result detail reply) :=
  (withUplink_keeps s _).trans (arbitrate_keeps _)

theorem sendGather_keeps (s : State) (g : GatherReport) : keepsBut [.uplink] s (s.sendGather g) :=
  (withUplink_keeps s _).trans (arbitrate_keeps _)

theorem sendBridgeOut_keeps (s : State) (m : BridgeOut) : keepsBut [.uplink] s (s.sendBridgeOut m) :=
  (withUplink_keeps s _).trans (arbitrate_keeps _)

theorem queueNotice_keeps (s : State) (i : SlotId) : keepsBut [.uplink, .slots] s (s.queueNotice i) :=
  ((withUplink_keeps s _).mono (by decide)).step (modSlot_keeps _ _ _) (by decide)

theorem raise_keeps (s : State) (i : SlotId) (k : EventKind) : keepsBut [.uplink, .slots] s (s.raise i k) := by
  unfold State.raise; dsimp only; split
  · exact .refl _ s
  · split
    · exact ((modSlot_keeps s _ _).mono (by decide)).step (queueNotice_keeps _ _) (by decide)
    · exact (modSlot_keeps s _ _).mono (by decide)

theorem raiseAgentUp_keeps (s : State) (i : SlotId) : keepsBut [.uplink, .slots] s (s.raiseAgentUp i) :=
  ((modSlot_keeps s _ _).mono (by decide)).step (raise_keeps _ _ _) (by decide)

theorem report_keeps (s : State) (i : SlotId) (r : Report) : keepsBut [.slots] s (s.report i r) := modSlot_keeps s _ _

theorem ask_keeps (s : State) (i : SlotId) (r : SlotRequest) : keepsBut [.slots] s (s.ask i r) := modSlot_keeps s _ _

theorem countCorrected_keeps (s : State) (k : ImageId) (n : Nat) : keepsBut [.images] s (s.countCorrected k n) :=
  modImage_keeps s _ _

/-! ### The store arbiter -/

theorem grantFirst_keeps (l : List (Fin 26)) (s : State) : keepsBut [.arbiter, .slots] s (s.grantFirst l) := by
  induction l with
  | nil => exact .refl _ s
  | cons p rest ih =>
    unfold State.grantFirst; split
    · exact ih
    · next g _ =>
      cases g <;>
        first
          | exact (withArbiter_keeps s _ _).mono (by decide)
          | exact ((withArbiter_keeps s _ _).mono (by decide)).step (modSlot_keeps _ _ _) (by decide)

theorem grant_keeps (s : State) : keepsBut [.arbiter, .slots] s s.grant := by
  unfold State.grant; split
  · exact grantFirst_keeps _ s
  · exact .refl _ s

/-! ### A slot engine's operations -/

theorem releaseReference_keeps (s : State) (i : SlotId) : keepsBut [.images, .slots] s (s.releaseReference i) := by
  unfold State.releaseReference; split
  · split
    · exact ((modImage_keeps s _ _).mono (by decide)).step (modSlot_keeps _ _ _) (by decide)
    · exact .refl _ s
  · exact .refl _ s

theorem dropInFlight_keeps (s : State) (i : SlotId) (c : DropCause) : keepsBut [.images, .slots] s (s.dropInFlight i c) :=
  (releaseReference_keeps s i).step (modSlot_keeps _ _ _) (by decide)

theorem dropAll_keeps (s : State) (i : SlotId) (c : DropCause) : keepsBut [.images, .slots] s (s.dropAll i c) :=
  (dropInFlight_keeps s i c).step (modSlot_keeps _ _ _) (by decide)

theorem openBridgeOn_keeps (s : State) (i : SlotId) (c : Option Nat) : keepsBut [.slots] s (s.openBridgeOn i c) :=
  modSlot_keeps s _ _

theorem resolveDeferred_keeps (s : State) (i : SlotId) : keepsBut [.port, .uplink, .slots] s (s.resolveDeferred i) := by
  unfold State.resolveDeferred; split
  · split
    · dsimp only; split
      · exact (((withPort_keeps s _).mono (by decide)).step (openBridgeOn_keeps _ _ _) (by decide)).step
          (answer_keeps _ _ _ _ _ _) (by decide)
      · exact ((withPort_keeps s _).mono (by decide)).step (answer_keeps _ _ _ _ _ _) (by decide)
    · exact .refl _ s
  · exact .refl _ s

theorem stopSlot_keeps (s : State) (i : SlotId) (c : DropCause) (dest : SlotState) :
    keepsBut [.port, .uplink, .images, .slots] s (s.stopSlot i c dest) :=
  (((dropAll_keeps s i c).mono (by decide)).step (modSlot_keeps _ _ _) (by decide)).step (resolveDeferred_keeps _ _)
    (by decide)

theorem writeFault_keeps (s : State) (i : SlotId) (c : FaultCause) (d : Half) :
    keepsBut [.uplink, .slots] s (s.writeFault i c d) := by
  unfold State.writeFault; split
  · exact .refl _ s
  · exact ((modSlot_keeps s _ _).mono (by decide)).step (raise_keeps _ _ _) (by decide)

theorem enterFault_keeps (s : State) (i : SlotId) (c : FaultCause) (d : Half) :
    keepsBut [.port, .uplink, .images, .slots] s (s.enterFault i c d) :=
  ((stopSlot_keeps s i _ _).step (modSlot_keeps _ _ _) (by decide)).step (writeFault_keeps _ _ _ _) (by decide)

theorem enterInhibited_keeps (s : State) (i : SlotId) (c : DropCause) :
    keepsBut [.port, .uplink, .images, .slots] s (s.enterInhibited i c) :=
  (stopSlot_keeps s i c _).step (raise_keeps _ _ _) (by decide)

theorem enterPowering_keeps (s : State) (i : SlotId) : keepsBut [.slots] s (s.enterPowering i) := modSlot_keeps s _ _

theorem enterBooting_keeps (s : State) (i : SlotId) : keepsBut [.slots] s (s.enterBooting i) := modSlot_keeps s _ _

theorem enterRecovering_keeps (s : State) (i : SlotId) (c : RestartCause) :
    keepsBut [.uplink, .images, .slots] s (s.enterRecovering i c) :=
  (((releaseReference_keeps s i).mono (by decide)).step (modSlot_keeps _ _ _) (by decide)).step (raise_keeps _ _ _)
    (by decide)

theorem recoveryDecision_keeps (s : State) (i : SlotId) (c : FaultCause) (d : Half) :
    keepsBut [.port, .uplink, .images, .slots] s (s.recoveryDecision i c d) := by
  unfold State.recoveryDecision; split
  · exact (((modSlot_keeps s _ _).mono (by decide)).step (enterRecovering_keeps _ _ _) (by decide)).step
      (resolveDeferred_keeps _ _) (by decide)
  · exact enterFault_keeps s i c d

theorem keepNestCode_keeps (s : State) (i : SlotId) : keepsBut [.slots] s (s.keepNestCode i) := by
  unfold State.keepNestCode; split
  · exact modSlot_keeps s _ _
  · exact .refl _ s

theorem admit_keeps (s : State) (i : SlotId) : keepsBut [.uplink, .slots] s (s.admitSeated i) := by
  have h := (keepNestCode_keeps s i).mono (B := [.uplink, .slots]) (by decide)
  unfold State.admitSeated; dsimp only; split
  · exact (h.step (modSlot_keeps _ _ _) (by decide)).step (writeFault_keeps _ _ _ _) (by decide)
  · split
    · exact (h.step (modSlot_keeps _ _ _) (by decide)).step (enterPowering_keeps _ _) (by decide)
    · exact h.step (modSlot_keeps _ _ _) (by decide)

theorem attachVacant_keeps (s : State) (i : SlotId) : keepsBut [.uplink, .slots] s (s.attachVacant i) := by
  unfold State.attachVacant; split
  · exact (modSlot_keeps s _ _).mono (by decide)
  · exact admit_keeps s i

theorem leaveInhibited_keeps (s : State) (i : SlotId) : keepsBut [.uplink, .slots] s (s.leaveInhibited i) := by
  unfold State.leaveInhibited; split
  · exact (modSlot_keeps s _ _).mono (by decide)
  · split
    · exact admit_keeps s i
    · exact (modSlot_keeps s _ _).mono (by decide)

theorem startExchange_keeps (s : State) (i : SlotId) (n : Nat) (p : ExchangePurpose) :
    keepsBut [.slots] s (s.startExchange i n p) := modSlot_keeps s _ _

theorem enterAborting_keeps (s : State) (i : SlotId) : keepsBut [.images, .slots] s (s.enterAborting i) :=
  (releaseReference_keeps s i).step (modSlot_keeps _ _ _) (by decide)

theorem startMember_keeps (s : State) (i : SlotId) (e : QueueEntry) : keepsBut [.images, .slots] s (s.startMember i e) := by
  unfold State.startMember; dsimp only; split
  · exact ((modSlot_keeps s _ _).mono (by decide)).step (report_keeps _ _ _) (by decide)
  · split
    · exact (((modSlot_keeps s _ _).mono (by decide)).step (report_keeps _ _ _) (by decide)).step (modImage_keeps _ _ _)
        (by decide)
    · exact ((((modSlot_keeps s _ _).mono (by decide)).step (report_keeps _ _ _) (by decide)).step (report_keeps _ _ _)
        (by decide)).step (enterAborting_keeps _ _) (by decide)

theorem readyWork_keeps (s : State) (i : SlotId) : keepsBut [.images, .slots] s (s.readyWork i) := by
  unfold State.readyWork; dsimp only; split
  · exact .refl _ s
  · split
    · exact (startExchange_keeps s _ _ _).mono (by decide)
    · split
      · exact .refl _ s
      · exact ((modSlot_keeps s _ _).mono (by decide)).step (startMember_keeps _ _ _) (by decide)

theorem noteAlone_keeps (s : State) : keepsBut [.arbiter] s s.noteAlone := by
  intro p hp; cases p <;> first | rfl | exact ⟨rfl, rfl⟩ | exact absurd (by decide) hp

/-- Another requester waits: a position of the cycle other than the engine's has an access to ask for. -/
theorem othersWait_iff (s : State) : s.othersWait = true ↔ ∃ p, p ≠ 1 ∧ s.storeRequest p ≠ none := by
  unfold State.othersWait
  rw [List.any_eq_true]
  constructor
  · rintro ⟨p, -, hp⟩
    simp only [Bool.and_eq_true, bne_iff_ne, Option.isSome_iff_ne_none] at hp
    exact ⟨p, fun h => hp.1 (by rw [h]; rfl), hp.2⟩
  · rintro ⟨p, h1, h2⟩
    refine ⟨p, List.mem_finRange p, ?_⟩
    simp only [Bool.and_eq_true, bne_iff_ne, Option.isSome_iff_ne_none]
    exact ⟨fun h => h1 (Fin.ext h), h2⟩

/-- The engine has the store to itself: it holds the grant, and no other position has an access to ask for. -/
theorem engineHasStore_iff (s : State) :
    s.engineHasStore = true ↔ s.granted = some .engine ∧ ∀ p, p ≠ 1 → s.storeRequest p = none := by
  unfold State.engineHasStore
  rw [Bool.and_eq_true, beq_iff_eq, Bool.not_eq_true', ← Bool.not_eq_true, othersWait_iff]
  simp only [not_exists, not_and, ne_eq, not_not]

/-- What is kept: that the engine has the store to itself, now or earlier in the job. -/
theorem noteAlone_engineAlone (s : State) :
    s.noteAlone.engineAlone = true ↔ s.engineAlone = true ∨ s.engineHasStore = true := by
  simp [State.noteAlone]

/-- A grant tells nothing new of the engine. -/
theorem grantFirst_engineAlone (s : State) (l : List (Fin 26)) : (s.grantFirst l).engineAlone = s.engineAlone := by
  induction l with
  | nil => rfl
  | cons p l ih =>
    rw [State.grantFirst]
    cases s.storeRequest p with
    | none => exact ih
    | some g => cases g <;> rfl

theorem grant_engineAlone (s : State) : s.grant.engineAlone = s.engineAlone := by
  unfold State.grant
  split
  · exact grantFirst_engineAlone _ _
  · rfl

/-- When a job may end: every access done, the one left in progress, or the engine alone now or earlier in the job. -/
theorem jobMayEnd_iff (s : State) (left : Nat) :
    s.jobMayEnd left = true ↔
      left = 0 ∨ (s.granted = some .engine ∧ left = 1) ∨ s.engineHasStore = true ∨ s.engineAlone = true := by
  simp [State.jobMayEnd, or_assoc]

theorem streamWork_keeps (s : State) (i : SlotId) : keepsBut [.arbiter, .slots] s (s.streamWork i) := by
  unfold State.streamWork; dsimp only; split
  · exact .refl _ s
  · split
    · exact (startExchange_keeps s _ _ _).mono (by decide)
    · exact ((noteAlone_keeps s).mono (by decide)).step (modSlot_keeps _ _ _) (by decide)

theorem slotWork_keeps (s : State) (i : SlotId) : keepsBut [.images, .arbiter, .slots] s (s.slotWork i) := by
  unfold State.slotWork
  refine keepsBut.step ?_ (grant_keeps _) (by decide)
  split
  · exact (readyWork_keeps s i).mono (by decide)
  · exact (streamWork_keeps s i).mono (by decide)
  · exact .refl _ s

theorem becomeReady_keeps (s : State) (i : SlotId) : keepsBut [.uplink, .images, .arbiter, .slots] s (s.becomeReady i) :=
  (((modSlot_keeps s _ _).mono (by decide)).step (raiseAgentUp_keeps _ _) (by decide)).step (slotWork_keeps _ _)
    (by decide)

theorem bootExchange_keeps (s : State) (i : SlotId) :
    keepsBut [.uplink, .images, .arbiter, .slots] s (s.bootExchange i) := by
  unfold State.bootExchange; split
  · exact becomeReady_keeps s i
  · exact (startExchange_keeps s _ _ _).mono (by decide)

/-- The parts that a slot engine's own events can change. -/
abbrev slotParts : List Part := [.port, .uplink, .images, .arbiter, .slots]

theorem loseScore_keeps (s : State) (i : SlotId) (n : Nat) : keepsBut slotParts s (s.loseScore i n) := by
  unfold State.loseScore; dsimp only; split
  · exact ((modSlot_keeps s _ _).mono (by decide)).step (enterFault_keeps _ _ _ _) (by decide)
  · exact ((modSlot_keeps s _ _).mono (by decide)).step (slotWork_keeps _ _) (by decide)

theorem restartSelf_keeps (s : State) (i : SlotId) : keepsBut [.port, .uplink, .slots] s (s.restartSelf i) :=
  (((modSlot_keeps s _ _).mono (by decide)).step (raise_keeps _ _ _) (by decide)).step (resolveDeferred_keeps _ _)
    (by decide)

theorem takeHello_keeps (s : State) (i : SlotId) (a : AgentIdentity) : keepsBut slotParts s (s.takeHello i a) := by
  unfold State.takeHello; dsimp only
  have h := (modSlot_keeps s i fun x => x.greet a).mono (B := slotParts) (by decide)
  refine keepsBut.step ?_ (bootExchange_keeps _ _) (by decide)
  split <;>
    first
      | exact (h.step (dropInFlight_keeps _ _ _) (by decide)).step (restartSelf_keeps _ _) (by decide)
      | exact h.step (modSlot_keeps _ _ _) (by decide)

theorem sequenceError_keeps (s : State) (i : SlotId) (q : Byte) : keepsBut slotParts s (s.sequenceError i q) :=
  ((modSlot_keeps s _ _).mono (by decide)).step (loseScore_keeps _ _ _) (by decide)

theorem formatError_keeps (s : State) (i : SlotId) (k : Byte) : keepsBut slotParts s (s.formatError i k) := by
  unfold State.formatError; split
  · exact loseScore_keeps s i 8
  · exact ((modSlot_keeps s _ _).mono (by decide)).step (loseScore_keeps _ _ _) (by decide)

theorem crcError_keeps (s : State) (i : SlotId) : keepsBut slotParts s (s.crcError i) := by
  have h := (modSlot_keeps s i Slot.hunt).mono (B := slotParts) (by decide)
  unfold State.crcError; dsimp only; split
  · split
    · exact h
    · exact h.step (loseScore_keeps _ _ _) (by decide)
  · exact .refl _ s

theorem countGood_keeps (s : State) (i : SlotId) : keepsBut [.slots] s (s.countGood i) := modSlot_keeps s _ _

/-- A received frame changes what its own handlers change and what a slot engine's events can. -/
theorem receive_keeps (s : State) (i : SlotId) (f : Frame) (detector : Bool) (early good : State → State)
    (he : ∀ s, keepsBut slotParts s (early s)) (hg : ∀ s, keepsBut slotParts s (good s)) :
    keepsBut slotParts s (s.receive i f detector early good) := by
  have h := (modSlot_keeps s i fun x => x.frameTaken detector).mono (B := slotParts) (by decide)
  unfold State.receive; dsimp only; split
  · exact h
  · exact h.step (takeHello_keeps _ i _) (by decide)
  · exact h.trans (he _)
  · exact h.step (sequenceError_keeps _ i _) (by decide)
  · exact h.step (formatError_keeps _ i _) (by decide)
  · exact ((h.step (countGood_keeps _ i) (by decide)).step (hg _) (by decide)).step (slotWork_keeps _ _) (by decide)

theorem appendText_keeps (s : State) (i : SlotId) (p : List Byte) : keepsBut [.uplink, .slots] s (s.appendText i p) := by
  unfold State.appendText; dsimp only; split
  · exact ((modSlot_keeps s _ _).mono (by decide)).step (raise_keeps _ _ _) (by decide)
  · exact (modSlot_keeps s _ _).mono (by decide)

theorem queueBridgeOut_keeps (s : State) (i : SlotId) : keepsBut [.uplink, .slots] s (s.queueBridgeOut i) :=
  ((modSlot_keeps s _ _).mono (by decide)).step (sendBridgeOut_keeps _ _) (by decide)

theorem buildBridgeOut_keeps (s : State) (i : SlotId) (b : Bool) :
    keepsBut [.uplink, .slots] s (s.buildBridgeOut i b) := by
  unfold State.buildBridgeOut; dsimp only; split
  · split
    · exact queueBridgeOut_keeps s i
    · split
      · exact (modSlot_keeps s _ _).mono (by decide)
      · exact .refl _ s
  · exact .refl _ s

theorem leaveBridge_keeps (s : State) (i : SlotId) : keepsBut [.slots] s (s.leaveBridge i) := modSlot_keeps s _ _

/-! ### The fan-out engine's operations -/

theorem modOp_keeps (s : State) (t : Tag) (f : Operation → Operation) : keepsBut [.operations] s (s.modOp t f) :=
  withOps_keeps s _

theorem complete_keeps (s : State) (t : Tag) (v : Verdict) : keepsBut [.uplink, .operations] s (s.complete t v) := by
  unfold State.complete; split
  · exact ((modOp_keeps s _ _).mono (by decide)).step (sendGather_keeps _ _) (by decide)
  · exact .refl _ s

theorem cancelMembers_keeps (s : State) (t : Tag) (c : CancelCause) :
    keepsBut [.operations, .slots] s (s.cancelMembers t c) := by
  unfold State.cancelMembers; split
  · exact ((modOp_keeps s _ _).mono (by decide)).step (keepsBut.foldl _ (fun s i => ask_keeps s i _) _ _) (by decide)
  · exact .refl _ s

/-- The parts that the fan-out engine's own work can change. -/
abbrev fanOutParts : List Part := [.uplink, .operations, .slots]

theorem evaluate_keeps (s : State) (t : Tag) : keepsBut fanOutParts s (s.evaluate t) := by
  unfold State.evaluate; split
  · split
    · split
      · exact ((cancelMembers_keeps s _ _).mono (by decide)).step (complete_keeps _ _ _) (by decide)
      · exact .refl _ s
    · exact .refl _ s
  · exact .refl _ s

theorem endMember_keeps (s : State) (t : Tag) (i : SlotId) (a : MemberStatus → Bool)
    (st : Operation → Member → MemberStatus) : keepsBut fanOutParts s (s.endMember t i a st) := by
  unfold State.endMember; split
  · split
    · split
      · split
        · exact ((modOp_keeps s _ _).mono (by decide)).step (evaluate_keeps _ _) (by decide)
        · exact .refl _ s
      · exact .refl _ s
    · exact .refl _ s
  · exact .refl _ s

/-- The parts that an operation of the fan-out engine and the slot engines it meets can change. -/
abbrev operationParts : List Part := [.uplink, .operations, .images, .arbiter, .slots]

theorem takeAppend_keeps (s : State) (i : SlotId) (e : QueueEntry) : keepsBut operationParts s (s.takeAppend i e) := by
  unfold State.takeAppend; dsimp only; split
  · exact ((modSlot_keeps s _ _).mono (by decide)).step (slotWork_keeps _ _) (by decide)
  · exact (endMember_keeps s _ _ _ _).mono (by decide)

theorem takeWithdraw_keeps (s : State) (i : SlotId) (t : Tag) : keepsBut operationParts s (s.takeWithdraw i t) := by
  unfold State.takeWithdraw; dsimp only; split
  · exact (modSlot_keeps s _ _).mono (by decide)
  · split
    · split
      · split
        · exact (modSlot_keeps s _ _).mono (by decide)
        · exact (enterAborting_keeps s _).mono (by decide)
        · exact .refl _ s
      · exact .refl _ s
    · exact .refl _ s

theorem takeRequest_keeps (s : State) (i : SlotId) : keepsBut operationParts s (s.takeRequest i) := by
  unfold State.takeRequest; split
  · exact .refl _ s
  · dsimp only; split
    · exact ((modSlot_keeps s _ _).mono (by decide)).step (takeAppend_keeps _ _ _) (by decide)
    · exact ((modSlot_keeps s _ _).mono (by decide)).step (takeWithdraw_keeps _ _ _) (by decide)

theorem drain_keeps (s : State) (i : SlotId) : keepsBut operationParts s (s.drain i) :=
  keepsBut.foldl _ (fun s _ => takeRequest_keeps s i) _ s

theorem openOperation_keeps (s : State) (o : Operation) : keepsBut operationParts s (s.openOperation o) := by
  unfold State.openOperation; split
  · exact ((modOp_keeps s _ _).mono (by decide)).step (complete_keeps _ _ _) (by decide)
  · exact (keepsBut.foldl _ (fun s i => ask_keeps s i _) _ _).mono (by decide)

theorem acceptOperation_keeps (s : State) (tag : Tag) (kind : Byte) (f : OperationFields) (v : SourceValues) (w : Work) :
    keepsBut operationParts s (s.acceptOperation tag kind f v w) := by
  have h := keepsBut.foldl (A := operationParts) State.drain drain_keeps (slotsOf v.set) s
  unfold State.acceptOperation; dsimp only; split
  · exact h.step (answer_keeps _ _ _ _ _ _) (by decide)
  · exact ((h.step (withOps_keeps _ _) (by decide)).step (answer_keeps _ _ _ _ _ _) (by decide)).step
      (openOperation_keeps _ _) (by decide)

theorem operate_keeps (s : State) (tag : Tag) (kind : Byte) (f : OperationFields) (w : Except ResultCode Work) :
    keepsBut operationParts s (s.operate tag kind f w) := by
  unfold State.operate; split
  · exact (answer_keeps s _ _ _ _ _).mono (by decide)
  · exact acceptOperation_keeps s _ _ _ _ _

/-! ### Every slot -/

theorem modSlots_keeps (s : State) (f : SlotId → Slot → Slot) : keepsBut [.slots] s (s.modSlots f) :=
  keepsBut.foldl _ (fun s i => modSlot_keeps s i _) _ s

theorem raisePlaced_keeps (s : State) (i : SlotId) : keepsBut [.uplink, .slots] s (s.raisePlaced i) := by
  unfold State.raisePlaced; split
  · exact raise_keeps s _ _
  · exact .refl _ s

theorem evaluatePresence_keeps (s : State) (i : SlotId) : keepsBut [.uplink, .slots] s (s.evaluatePresence i) := by
  unfold State.evaluatePresence; dsimp only; split
  · split
    · exact (raise_keeps s _ _).step (attachVacant_keeps _ _) (by decide)
    · exact raise_keeps s _ _
  · exact .refl _ s

theorem placeSlots_keeps (s : State) : keepsBut [.uplink, .slots] s s.placeSlots :=
  (keepsBut.foldl _ raisePlaced_keeps _ s).trans (keepsBut.foldl _ evaluatePresence_keeps _ _)

/-! ### The image store and its engine -/

theorem withStore_keeps (s : State) (m : List Host.Cell) (l : List Nat) :
    keepsBut [.store] s { s with store := m, lostBits := l } := by
  intro p hp; cases p <;> first | rfl | exact ⟨rfl, rfl⟩ | exact ⟨rfl, rfl, rfl⟩ | exact absurd (by decide) hp

theorem withJobs_keeps (s : State) (l : List Job) (n : Nat) :
    keepsBut [.jobs] s { s with jobs := l, engineBlocks := n } := by
  intro p hp; cases p <;> first | rfl | exact ⟨rfl, rfl⟩ | exact ⟨rfl, rfl, rfl⟩ | exact absurd (by decide) hp

theorem damageImage_keeps (s : State) (k : ImageId) : keepsBut [.images, .slots] s (s.damageImage k) := by
  unfold State.damageImage; split
  · exact ((modImage_keeps s _ _).mono (by decide)).step (modSlots_keeps _ _) (by decide)
  · exact (modImage_keeps s _ _).mono (by decide)
  · exact (modImage_keeps s _ _).mono (by decide)
  · exact .refl _ s

theorem chargeWords_keeps (s : State) (k : ImageId) (first n : Nat) :
    keepsBut [.images, .slots] s (s.chargeWords k first n) := by
  have h := (countCorrected_keeps s k (Memory.corrected s.lostBits first n)).mono (B := [.images, .slots]) (by decide)
  unfold State.chargeWords; dsimp only; split
  · exact h.trans (damageImage_keeps _ _)
  · exact h

theorem disturb_keeps (s : State) (first n : Nat) (lostOne lostTwo : List Nat) :
    keepsBut [.store] s (s.disturb first n lostOne lostTwo) :=
  withStore_keeps s _ _

theorem chargeRead_keeps (s : State) (k : ImageId) (block : Nat) :
    keepsBut [.images, .slots] s (s.chargeRead k block) := by
  unfold State.chargeRead; split
  · exact chargeWords_keeps s k _ _
  · exact .refl _ s

theorem deliver_keeps (s : State) (i : SlotId) (block : Nat) (failed : Bool) :
    keepsBut [.slots] s (s.deliver i block failed) :=
  modSlot_keeps s i _

theorem endJob_keeps (s : State) : keepsBut [.jobs, .arbiter] s s.endJob := by
  intro p hp; cases p <;> first | rfl | exact ⟨rfl, rfl⟩ | exact absurd (by decide) hp

theorem clearBlocks_keeps (s : State) (first n : Nat) : keepsBut [.store] s (s.clearBlocks first n) :=
  withStore_keeps s _ _

theorem engineBlock_keeps (s : State) (j : Job) :
    keepsBut [.images, .store, .jobs, .arbiter, .slots] s (s.engineBlock j) := by
  cases j with
  | clear k => exact ((clearBlocks_keeps s _ _).mono (by decide)).step (withJobs_keeps _ _ _) (by decide)
  | verify k =>
    have h := (chargeWords_keeps s k (Config.blockWords * ((s.image k).firstBlock + s.engineBlocks))
      Config.blockWords).mono (B := [.images, .store, .jobs, .arbiter, .slots]) (by decide)
    simp only [State.engineBlock]; split
    · exact h.step (endJob_keeps _) (by decide)
    · exact h.step (withJobs_keeps _ _ _) (by decide)

/-- The engine's access in progress changes what its block changes, and the store's next grant. -/
theorem endEngineAccess_keeps (s : State) :
    keepsBut [.images, .store, .jobs, .arbiter, .slots] s s.endEngineAccess := by
  unfold State.endEngineAccess; split
  · split
    · refine keepsBut.step (C := [.images, .store, .jobs, .arbiter, .slots]) (t := { (_ : State) with granted := none })
        ?_ (grant_keeps _) (by decide)
      refine keepsBut.step ?_ (withArbiter_keeps _ _ _) (by decide)
      split
      · exact .refl _ s
      · exact engineBlock_keeps s _
    · exact ((withArbiter_keeps s none _).mono (by decide)).step (grant_keeps _) (by decide)
  · exact (grant_keeps s).mono (by decide)

/-- A step of the time base changes the count and the slots. -/
theorem tick_keeps (s : State) : keepsBut [.time, .slots] s s.tick := by
  unfold State.tick; split
  · exact .refl _ s
  · refine keepsBut.step (C := [.time, .slots]) (t := { s with now := s.now + 1 }) ?_ (modSlots_keeps _ _) (by decide)
    intro p hp; cases p <;> first | rfl | exact ⟨rfl, rfl⟩ | exact ⟨rfl, rfl, rfl⟩ | exact absurd (by decide) hp

/-- A request changes what its own run changes. -/
theorem requestWith_keeps {α : Type} (A : List Part) (hA : Part.uplink ∈ A) (s : State) (tag : Tag) (kind : Byte)
    (body : Body α) (run : α → State → State) (h : ∀ f s, keepsBut A s (run f s)) :
    keepsBut A s (s.requestWith tag kind body run) := by
  unfold State.requestWith State.request; split
  · cases body with
    | shaped f => exact h f s
    | misshapen b => exact (answer_keeps s _ _ _ _ _).mono (by simpa using hA)
  · exact .refl _ s

end Sys2Proof.Machine
end

