-- ==== Sys2Proof/Laws/Memory.lean ====
section
/-! SUPPORT. The image store's bytes: reading after writing, and the canonical form that every operation keeps. -/

namespace Sys2Proof.Machine

/-! ### The canonical form -/

theorem Memory.wfAbove_mono {lo lo' : Nat} (h : lo' ≤ lo) (m : List Host.Cell) (hm : Memory.wfAbove lo m = true) :
    Memory.wfAbove lo' m = true := by
  cases m with
  | nil => rfl
  | cons c rest =>
    obtain ⟨a, v⟩ := c
    simp only [Memory.wfAbove, Bool.and_eq_true, decide_eq_true_eq] at hm ⊢
    exact ⟨⟨⟨h.trans hm.1.1.1, hm.1.1.2⟩, hm.1.2⟩, hm.2⟩

theorem Memory.wfAbove_write {lo a : Nat} (v : Byte) (m : List Host.Cell) (hlo : lo ≤ a) (ha : a < Config.storeBytes)
    (hm : Memory.wfAbove lo m = true) : Memory.wfAbove lo (Memory.write m a v) = true := by
  induction m generalizing lo with
  | nil => by_cases hv : v = Memory.blank <;> simp [Memory.write, Memory.wfAbove, hv, hlo, ha]
  | cons c rest ih =>
    obtain ⟨b, w⟩ := c
    simp only [Memory.wfAbove, Bool.and_eq_true, decide_eq_true_eq] at hm
    obtain ⟨⟨⟨h1, h2⟩, h3⟩, h4⟩ := hm
    unfold Memory.write
    split_ifs with c1 c2 c3 c4
    · simp [Memory.wfAbove, h1, h2, h4]; simpa using h3
    · have := Memory.wfAbove_mono (show a + 1 ≤ b from c1) ((b, w) :: rest)
        (by simp only [Memory.wfAbove, Bool.and_eq_true, decide_eq_true_eq]; exact ⟨⟨⟨le_refl _, h2⟩, h3⟩, h4⟩)
      simp only [Memory.wfAbove, Bool.and_eq_true, decide_eq_true_eq] at this ⊢
      exact ⟨⟨⟨hlo, ha⟩, by simpa using c2⟩, this⟩
    · exact Memory.wfAbove_mono (by omega) rest h4
    · subst c3
      simp only [Memory.wfAbove, Bool.and_eq_true, decide_eq_true_eq]
      exact ⟨⟨⟨hlo, ha⟩, by simpa using c4⟩, h4⟩
    · simp only [Memory.wfAbove, Bool.and_eq_true, decide_eq_true_eq]
      exact ⟨⟨⟨h1, h2⟩, h3⟩, ih (by omega) h4⟩

/-- A write inside the store keeps the canonical form. -/
theorem Memory.wf_write {m : List Host.Cell} {a : Nat} (v : Byte) (ha : a < Config.storeBytes)
    (hm : Memory.wf m = true) : Memory.wf (Memory.write m a v) = true :=
  Memory.wfAbove_write v m (Nat.zero_le a) ha hm

theorem Memory.wf_writeBytes {m : List Host.Cell} {a : Nat} (vs : List Byte) (ha : a + vs.length ≤ Config.storeBytes)
    (hm : Memory.wf m = true) : Memory.wf (Memory.writeBytes m a vs) = true := by
  induction vs generalizing m a with
  | nil => exact hm
  | cons v vs ih =>
    simp only [List.length_cons] at ha
    exact ih (by omega) (Memory.wf_write v (by omega) hm)

theorem Memory.wfAbove_filter {lo : Nat} (p : Host.Cell → Bool) (m : List Host.Cell)
    (hm : Memory.wfAbove lo m = true) : Memory.wfAbove lo (m.filter p) = true := by
  induction m generalizing lo with
  | nil => rfl
  | cons c rest ih =>
    obtain ⟨b, w⟩ := c
    simp only [Memory.wfAbove, Bool.and_eq_true, decide_eq_true_eq] at hm
    rw [List.filter_cons]
    split_ifs
    · simp only [Memory.wfAbove, Bool.and_eq_true, decide_eq_true_eq]
      exact ⟨hm.1, ih hm.2⟩
    · exact Memory.wfAbove_mono (by omega) _ (ih hm.2)

/-- Clearing a range keeps the canonical form. -/
theorem Memory.wf_clear {m : List Host.Cell} (a n : Nat) (hm : Memory.wf m = true) :
    Memory.wf (Memory.clear m a n) = true :=
  Memory.wfAbove_filter _ m hm

theorem Memory.wf_reset : Memory.wf State.reset.store = true := rfl

/-! ### Reading back -/

theorem Memory.read_below {lo a : Nat} (h : a < lo) (m : List Host.Cell) (hm : Memory.wfAbove lo m = true) :
    Memory.read m a = Memory.blank := by
  induction m generalizing lo with
  | nil => rfl
  | cons c rest ih =>
    obtain ⟨b, w⟩ := c
    simp only [Memory.wfAbove, Bool.and_eq_true, decide_eq_true_eq] at hm
    rw [Memory.read, if_neg (by omega)]
    exact ih (by omega) hm.2

theorem Memory.read_write_above {lo : Nat} (m : List Host.Cell) (hm : Memory.wfAbove lo m = true) (a b : Nat)
    (v : Byte) : Memory.read (Memory.write m a v) b = if b = a then v else Memory.read m b := by
  induction m generalizing lo with
  | nil => by_cases hv : v = Memory.blank <;> by_cases hb : b = a <;> simp [Memory.write, Memory.read, hv, hb]
  | cons c rest ih =>
    obtain ⟨x, w⟩ := c
    simp only [Memory.wfAbove, Bool.and_eq_true, decide_eq_true_eq] at hm
    have hrest := hm.2
    by_cases c1 : a < x
    · by_cases hv : v = Memory.blank
      · by_cases hb : b = a
        · subst hb; subst hv
          simp [Memory.write, c1, Memory.read, show b ≠ x by omega, Memory.read_below (show b < x + 1 by omega) rest hrest]
        · simp [Memory.write, c1, hv, hb]
      · simp [Memory.write, c1, hv, Memory.read]
    · by_cases c2 : a = x
      · subst c2
        by_cases hv : v = Memory.blank
        · by_cases hb : b = a
          · subst hb
            simp [Memory.write, hv, Memory.read_below (Nat.lt_succ_self b) rest hrest]
          · simp [Memory.write, hv, Memory.read, hb]
        · by_cases hb : b = a <;> simp [Memory.write, hv, Memory.read, hb]
      · rw [Memory.write, if_neg c1, if_neg c2, Memory.read, ih hrest, Memory.read]
        by_cases hb : b = a
        · subst hb; simp [c2]
        · simp [hb]

/-- A byte reads as the value written last, and any other byte as before. -/
theorem Memory.read_write {m : List Host.Cell} (hm : Memory.wf m = true) (a b : Nat) (v : Byte) :
    Memory.read (Memory.write m a v) b = if b = a then v else Memory.read m b :=
  Memory.read_write_above m hm a b v

/-- The bytes written read back, and every byte outside reads as before. -/
theorem Memory.read_writeBytes {m : List Host.Cell} (hm : Memory.wf m = true) (a b : Nat) (vs : List Byte)
    (ha : a + vs.length ≤ Config.storeBytes) :
    Memory.read (Memory.writeBytes m a vs) b =
      if a ≤ b ∧ b < a + vs.length then vs.getD (b - a) Memory.blank else Memory.read m b := by
  induction vs generalizing m a with
  | nil => rw [if_neg (by simp)]; rfl
  | cons v vs ih =>
    simp only [List.length_cons] at ha ⊢
    rw [Memory.writeBytes, ih (Memory.wf_write v (by omega) hm) (a + 1) (by omega), Memory.read_write hm]
    by_cases h1 : a + 1 ≤ b ∧ b < a + 1 + vs.length
    · rw [if_pos h1, if_pos (by omega), show b - a = (b - (a + 1)) + 1 by omega, List.getD_cons_succ]
    · rw [if_neg h1]
      by_cases h2 : b = a
      · subst h2; rw [if_pos rfl, if_pos (by omega)]; simp
      · rw [if_neg h2, if_neg (by omega)]

theorem Memory.read_filter {lo : Nat} (p : Nat → Bool) (m : List Host.Cell) (hm : Memory.wfAbove lo m = true) (b : Nat) :
    Memory.read (m.filter fun c => p c.1) b = if p b then Memory.read m b else Memory.blank := by
  induction m generalizing lo with
  | nil => simp [Memory.read]
  | cons c rest ih =>
    obtain ⟨x, w⟩ := c
    simp only [Memory.wfAbove, Bool.and_eq_true, decide_eq_true_eq] at hm
    rw [List.filter_cons]
    by_cases hb : b = x
    · subst hb
      by_cases hp : p b = true
      · simp [hp, Memory.read]
      · rw [if_neg (by simpa using hp), ih hm.2, if_neg hp, if_neg hp]
    · by_cases hx : p x = true
      · rw [if_pos (by simpa using hx), Memory.read, if_neg hb, ih hm.2, Memory.read, if_neg hb]
      · rw [if_neg (by simpa using hx), ih hm.2, Memory.read, if_neg hb]

/-- A cleared byte reads as 0xFF, and every byte outside reads as before (R125). -/
theorem Memory.read_clear {m : List Host.Cell} (hm : Memory.wf m = true) (a n b : Nat) :
    Memory.read (Memory.clear m a n) b = if a ≤ b ∧ b < a + n then Memory.blank else Memory.read m b := by
  have h := Memory.read_filter (fun x => !(a ≤ x && x < a + n)) m hm b
  rw [Memory.clear]
  simp only [h, Bool.not_eq_true', Bool.and_eq_false_iff, decide_eq_false_iff_not]
  by_cases h1 : a ≤ b ∧ b < a + n
  · rw [if_pos h1, if_neg (by omega)]
  · rw [if_neg h1, if_pos (by omega)]

@[simp] theorem Memory.readBytes_length (m : List Host.Cell) (a n : Nat) : (Memory.readBytes m a n).length = n := by
  simp [Memory.readBytes]

/-! ### The codes of the words -/

/-- The canonical form of the list of bits in error: ascending, no word more than twice, every word in the store. -/
theorem Memory.codesWf_iff (l : List Nat) :
    Memory.codesWf l = true ↔ l.Pairwise (· ≤ ·) ∧ ∀ w ∈ l, l.count w ≤ 2 ∧ w < Config.storeWords := by
  simp [Memory.codesWf]

/-- A lost bit keeps the canonical form. -/
theorem Memory.codesWf_loseBit {l : List Nat} (w : Nat) (h : Memory.codesWf l = true) :
    Memory.codesWf (Memory.loseBit l w) = true := by
  rw [Memory.codesWf_iff] at h ⊢
  unfold Memory.loseBit
  split
  · next hw =>
    simp only [Bool.and_eq_true, decide_eq_true_eq] at hw
    have hp := List.perm_orderedInsert (· ≤ ·) w l
    refine ⟨List.Pairwise.orderedInsert w l h.1, fun v hv => ?_⟩
    rw [hp.count_eq, List.count_cons]
    by_cases hvw : v = w
    · subst hvw; simp; exact ⟨by omega, hw.2⟩
    · have hm : v ∈ l := by simpa [hvw] using hp.mem_iff.mp hv
      have := h.2 v hm
      rw [if_neg (by simpa using fun e => hvw e.symm)]
      exact ⟨by omega, this.2⟩
  · exact h

theorem Memory.codesWf_loseBits {l : List Nat} (first n : Nat) (lost : List Nat) (h : Memory.codesWf l = true) :
    Memory.codesWf (Memory.loseBits l first n lost) = true := by
  unfold Memory.loseBits
  generalize lost.filter _ = k
  induction k generalizing l with
  | nil => exact h
  | cons w k ih => exact ih (Memory.codesWf_loseBit _ h)

/-- Fresh codes keep the canonical form. -/
theorem Memory.codesWf_freshen {l : List Nat} (first n : Nat) (h : Memory.codesWf l = true) :
    Memory.codesWf (Memory.freshen l first n) = true := by
  rw [Memory.codesWf_iff] at h ⊢
  refine ⟨h.1.filter _, fun w hw => ?_⟩
  have hm := (List.mem_filter.mp hw).1
  exact ⟨(List.Sublist.count_le w List.filter_sublist).trans (h.2 w hm).1, (h.2 w hm).2⟩

theorem Memory.codesWf_reset : Memory.codesWf State.reset.lostBits = true := rfl

/-- A word written with a fresh code reads without error, and every other word as before (R117). -/
theorem Memory.check_freshen (l : List Nat) (first n w : Nat) :
    Memory.check (Memory.freshen l first n) w =
      if first ≤ w ∧ w < first + n then .clean else Memory.check l w := by
  unfold Memory.check Memory.freshen
  split_ifs with h
  · have h0 : (l.filter fun w => !(first ≤ w && w < first + n)).count w = 0 :=
      List.count_eq_zero.mpr fun hm => by simpa [h] using (List.mem_filter.mp hm).2
    simp only [h0]
  · rw [List.count_filter (by simp; omega)]

/-- Words without errors have nothing to count. -/
theorem Memory.corrected_nil (first n : Nat) : Memory.corrected [] first n = 0 := rfl

theorem Memory.uncorrectable_nil (first n : Nat) : Memory.uncorrectable [] first n = none := rfl

/-! ### The block a write stores -/

theorem zeroWord_wf {m : List Host.Cell} (isRead : Bool) (check : WordCheck) (word : Nat)
    (hw : 8 * word + 8 ≤ Config.storeBytes) (hm : Memory.wf m = true) :
    Memory.wf (zeroWord m isRead check word) = true := by
  unfold zeroWord
  split_ifs
  · exact Memory.wf_writeBytes _ (by simpa using hw) hm
  · exact hm

/-- One access of an IMAGE_WRITE keeps the canonical form. -/
theorem writeBlock_wf {m : List Host.Cell} {a : Nat} {bytes : List Byte} (first last : WordCheck)
    (ha : a + bytes.length ≤ Config.storeBytes) (hb : bytes ≠ []) (hm : Memory.wf m = true) :
    Memory.wf (writeBlock m a bytes first last) = true := by
  have hl : 0 < bytes.length := List.length_pos_iff.mpr hb
  have h8 : Config.storeBytes = 8 * 1048576 := rfl
  refine Memory.wf_writeBytes _ ha (zeroWord_wf _ _ _ ?_ (zeroWord_wf _ _ _ ?_ hm)) <;> omega

end Sys2Proof.Machine
end

