-- ==== Sys2Proof/Laws/Slots.lean ====
section
/-! SUPPORT. What each shared operation makes of each slot, said once: the slot it acts on by an explicit record, every other
slot as it was (but for a read that the store arbiter grants). -/

namespace Sys2Proof.Machine

variable {s t : State} {i j : SlotId}

/-! ### Events and messages -/

theorem hasEvent_or_bit {m : BitVec 8} {k : EventKind} (h : hasEvent m k = true) : m ||| k.bit = m := by
  revert m; cases k <;> decide

theorem hasEvent_self_or_bit (m : BitVec 8) (k : EventKind) : hasEvent (m ||| k.bit) k = true := by
  revert m; cases k <;> decide

@[simp] theorem slot_arbitrate (s : State) (j : SlotId) : s.arbitrate.slot j = s.slot j :=
  State.slot_congr ((arbitrate_keeps s).slots (by decide)) j

@[simp] theorem slot_answer (s : State) (tag : Tag) (kind : Byte) (result : ResultCode) (detail : Half) (reply : Reply)
    (j : SlotId) : (s.answer tag kind result detail reply).slot j = s.slot j :=
  State.slot_congr ((answer_keeps s tag kind result detail reply).slots (by decide)) j

@[simp] theorem slot_sendGather (s : State) (g : GatherReport) (j : SlotId) : (s.sendGather g).slot j = s.slot j :=
  State.slot_congr ((sendGather_keeps s g).slots (by decide)) j

@[simp] theorem slot_sendBridgeOut (s : State) (m : BridgeOut) (j : SlotId) : (s.sendBridgeOut m).slot j = s.slot j :=
  State.slot_congr ((sendBridgeOut_keeps s m).slots (by decide)) j

@[simp] theorem slot_modOp (s : State) (t : Tag) (f : Operation → Operation) (j : SlotId) :
    (s.modOp t f).slot j = s.slot j := rfl

@[simp] theorem slot_complete (s : State) (t : Tag) (v : Verdict) (j : SlotId) : (s.complete t v).slot j = s.slot j :=
  State.slot_congr ((complete_keeps s t v).slots (by decide)) j

theorem slot_queueNotice (s : State) (i j : SlotId) :
    (s.queueNotice i).slot j = if j = i then { s.slot i with noticeWaiting := true } else s.slot j := by
  rw [State.queueNotice, State.slot_modSlot]; rfl

theorem slot_raise (s : State) (i : SlotId) (k : EventKind) (j : SlotId) :
    (s.raise i k).slot j = if j = i then (s.slot i).raised k s.noticeMask else s.slot j := by
  unfold State.raise; dsimp only
  split
  · next h =>
    split
    · next hj => subst hj; simp [Slot.raised, h, hasEvent_or_bit h]
    · rfl
  · next h =>
    have hf : hasEvent (s.slot i).pendingEvents k = false := by simpa using h
    split
    · next h2 =>
      rw [slot_queueNotice]
      simp only [Bool.and_eq_true, Bool.not_eq_true'] at h2
      split
      · simp [Slot.raised, hf, h2.1]
      · next hj => exact State.slot_modSlot_ne s _ hj
    · next h2 =>
      rw [State.slot_modSlot]
      split
      · simp only [Bool.and_eq_true, Bool.not_eq_true', not_and, Bool.not_eq_false] at h2
        simp only [Slot.raised, hf, Bool.not_false, Bool.true_and]
        congr 1
        cases hm : hasEvent s.noticeMask k
        · simp
        · simp [h2 hm]
      · rfl

theorem slot_raise_ne (h : j ≠ i) (k : EventKind) : (s.raise i k).slot j = s.slot j := by simp [slot_raise, h]

theorem slot_raiseAgentUp (s : State) (i j : SlotId) :
    (s.raiseAgentUp i).slot j =
      if j = i then
        Slot.raised { s.slot i with agentUpCause := some (s.slot i).restartCause } .agentUp s.noticeMask
      else s.slot j := by
  rw [State.raiseAgentUp, slot_raise]
  split
  · simp
  · next h => exact State.slot_modSlot_ne s _ h

theorem slot_report (s : State) (i : SlotId) (r : Report) (j : SlotId) :
    (s.report i r).slot j =
      if j = i then { s.slot i with reports := (s.slot i).reports ++ [r] } else s.slot j :=
  State.slot_modSlot s i j _

theorem slot_ask (s : State) (i : SlotId) (r : SlotRequest) (j : SlotId) :
    (s.ask i r).slot j = if j = i then { s.slot i with requests := (s.slot i).requests ++ [r] } else s.slot j :=
  State.slot_modSlot s i j _

/-! ### The store arbiter -/

theorem Slot.sameButGrant_refl (x : Slot) : x.sameButGrant x := .inl rfl

/-- A grant changes no slot but for the read it grants. -/
theorem slot_grantFirst (l : List (Fin 26)) (s : State) (j : SlotId) :
    (s.slot j).sameButGrant ((s.grantFirst l).slot j) := by
  induction l with
  | nil => exact .inl rfl
  | cons p rest ih =>
    unfold State.grantFirst; split
    · exact ih
    · next g hg =>
      cases g with
      | writePath => exact .inl rfl
      | engine => exact .inl rfl
      | reader i k b =>
        dsimp only
        rw [State.slot_modSlot]
        split
        · next hj =>
          subst hj
          refine .inr ⟨?_, rfl⟩
          unfold State.storeRequest at hg
          split at hg
          · dsimp only at hg
            split at hg
            · next k' c hk =>
              simp only [Option.some.injEq, Grant.reader.injEq] at hg
              rw [← hg.1, hk]; rfl
            · cases hg
          · split at hg
            · split at hg <;> cases hg
            · split at hg <;> cases hg
        · exact .inl rfl

theorem slot_grant (s : State) (j : SlotId) : (s.slot j).sameButGrant (s.grant.slot j) := by
  unfold State.grant; split
  · exact slot_grantFirst _ s j
  · exact .inl rfl

/-! ### How a slot stops -/

theorem Slot.released_of_not_held {x : Slot} (h : ∀ r, x.stream = some r → r.referenceHeld = false) :
    x.released = x := by
  unfold Slot.released Slot.modStream
  split
  · next f hf =>
    split
    · next r hr =>
      have h' := h r (by simp [Slot.stream, hf, hr])
      dsimp only
      have hr' : ({ r with referenceHeld := false } : StreamRecord) = r := by rw [← h']
      rw [hr', ← hr]
      have : some ({ f with transaction := f.transaction } : InFlight) = x.inFlight := hf.symm
      rw [this]
    · rfl
  · rfl

theorem slot_releaseReference (s : State) (i j : SlotId) :
    (s.releaseReference i).slot j = if j = i then (s.slot i).released else s.slot j := by
  unfold State.releaseReference
  split
  · next r hr =>
    split
    · rw [State.slot_modSlot]; rfl
    · next h =>
      split
      · next hj =>
        subst hj
        exact (Slot.released_of_not_held fun r' hr' => by rw [hr] at hr'; cases hr'; simpa using h).symm
      · rfl
  · next hr =>
    split
    · next hj => subst hj; exact (Slot.released_of_not_held fun r' hr' => by rw [hr] at hr'; cases hr').symm
    · rfl

theorem Slot.released_with (x : Slot) : ∃ f, x.released = { x with inFlight := f } ∧
    (f.bind (·.owner)) = (x.inFlight.bind (·.owner)) ∧ f.isSome = x.inFlight.isSome := by
  unfold Slot.released Slot.modStream
  split
  · next f hf =>
    split
    · exact ⟨_, rfl, by simp [hf], by simp [hf]⟩
    · exact ⟨x.inFlight, rfl, rfl, rfl⟩
  · exact ⟨x.inFlight, rfl, rfl, rfl⟩

theorem Slot.inFlightDrop_released (x : Slot) (c : DropCause) : x.released.inFlightDrop c = x.inFlightDrop c := by
  obtain ⟨f, hx, ho, hs⟩ := x.released_with
  rw [hx]
  unfold Slot.inFlightDrop
  cases hf : f <;> cases hxf : x.inFlight <;> simp_all

theorem slot_dropInFlight (s : State) (i : SlotId) (c : DropCause) (j : SlotId) :
    (s.dropInFlight i c).slot j =
      if j = i then { s.slot i with reports := (s.slot i).reports ++ (s.slot i).inFlightDrop c, inFlight := none }
      else s.slot j := by
  rw [State.dropInFlight, State.slot_modSlot]
  split
  · rw [slot_releaseReference, if_pos rfl, Slot.inFlightDrop_released]
    obtain ⟨f, hx, _, _⟩ := (s.slot i).released_with
    rw [hx]
  · next h => rw [slot_releaseReference, if_neg h]

theorem slot_dropAll (s : State) (i : SlotId) (c : DropCause) (j : SlotId) :
    (s.dropAll i c).slot j = if j = i then (s.slot i).dropped c else s.slot j := by
  rw [State.dropAll, State.slot_modSlot]
  split
  · rw [slot_dropInFlight, if_pos rfl]; rfl
  · next h => rw [slot_dropInFlight, if_neg h]

theorem slot_resolveDeferred_ne (h : j ≠ i) : (s.resolveDeferred i).slot j = s.slot j := by
  unfold State.resolveDeferred; split
  · split
    · dsimp only; split
      · rw [slot_answer, State.openBridgeOn, State.slot_modSlot_ne _ _ h]; rfl
      · rw [slot_answer]; rfl
    · rfl
  · rfl

/-- An OPEN_BRIDGE deferred on a slot that is not READY changes no slot. -/
theorem slot_resolveDeferred_of_not_ready (h : (s.slot i).state ≠ .ready) (j : SlotId) :
    (s.resolveDeferred i).slot j = s.slot j := by
  unfold State.resolveDeferred; split
  · split
    · simp only [slot_answer]; rfl
    · rfl
  · rfl

theorem slot_stopSlot (s : State) (i : SlotId) (c : DropCause) {dest : SlotState} (h : dest ≠ .ready) (j : SlotId) :
    (s.stopSlot i c dest).slot j = if j = i then (s.slot i).stopped c dest else s.slot j := by
  have hi : (((s.dropAll i c).modSlot i fun x => { x.halt with state := dest }).slot i) = (s.slot i).stopped c dest := by
    rw [State.slot_modSlot_same, slot_dropAll, if_pos rfl]; rfl
  rw [State.stopSlot, slot_resolveDeferred_of_not_ready (by rw [hi]; exact h), State.slot_modSlot]
  split
  · rw [slot_dropAll, if_pos rfl]; rfl
  · next hj => rw [slot_dropAll, if_neg hj]

theorem slot_writeFault (s : State) (i : SlotId) (c : FaultCause) (d : Half) (j : SlotId) :
    (s.writeFault i c d).slot j =
      if j = i ∧ (s.slot i).faultRecord.isSome = false then
        Slot.raised { s.slot i with faultRecord := some ⟨c, s.now, d, 0⟩ } .fault s.noticeMask
      else s.slot j := by
  unfold State.writeFault
  split
  · next h => simp [h]
  · next h =>
    rw [slot_raise]
    split
    · next hj => simp [hj, h]
    · next hj => rw [if_neg (by simp [hj]), State.slot_modSlot_ne _ _ hj]

theorem stopSlot_now (s : State) (i : SlotId) (c : DropCause) (dest : SlotState) : (s.stopSlot i c dest).now = s.now :=
  (stopSlot_keeps s i c dest).time (by decide)

theorem stopSlot_mask (s : State) (i : SlotId) (c : DropCause) (dest : SlotState) :
    (s.stopSlot i c dest).noticeMask = s.noticeMask := stopSlot_keeps s i c dest .mask (by decide)

@[simp] theorem Slot.applyCeiling_faultRecord (x : Slot) : x.applyCeiling.faultRecord = x.faultRecord := rfl

@[simp] theorem Slot.stopped_faultRecord (x : Slot) (c : DropCause) (dest : SlotState) :
    (x.stopped c dest).faultRecord = x.faultRecord := rfl

@[simp] theorem Slot.stopped_period (x : Slot) (c : DropCause) (dest : SlotState) :
    (x.stopped c dest).power.period = x.power.period := rfl

theorem slot_enterFault (s : State) (i : SlotId) (c : FaultCause) (d : Half) (j : SlotId) :
    (s.enterFault i c d).slot j =
      if j = i then (s.slot i).faulted c d s.now s.noticeMask else s.slot j := by
  have hs : ∀ j, (s.stopSlot i .slotFault .fault).slot j =
      if j = i then (s.slot i).stopped .slotFault .fault else s.slot j := slot_stopSlot s i .slotFault (by decide)
  have hn : ((s.stopSlot i .slotFault .fault).modSlot i fun x => { x with faultPeriod := some x.power.period }).now =
      s.now := stopSlot_now s i _ _
  have hm : ((s.stopSlot i .slotFault .fault).modSlot i fun x =>
      { x with faultPeriod := some x.power.period }).noticeMask = s.noticeMask := stopSlot_mask s i _ _
  rw [State.enterFault, slot_writeFault, hn, hm]
  simp only [State.slot_modSlot, hs, if_true]
  by_cases hj : j = i
  · subst hj
    have hf : ({ (s.slot j).stopped .slotFault .fault with faultPeriod := some (s.slot j).power.period } : Slot).faultRecord =
        (s.slot j).faultRecord := Slot.stopped_faultRecord (s.slot j) .slotFault .fault
    unfold Slot.faulted
    cases hr : (s.slot j).faultRecord <;> simp [hr]
  · simp [hj]

theorem slot_enterInhibited (s : State) (i : SlotId) (c : DropCause) (j : SlotId) :
    (s.enterInhibited i c).slot j =
      if j = i then Slot.raised ((s.slot i).stopped c .inhibited) .inhibit s.noticeMask else s.slot j := by
  rw [State.enterInhibited, slot_raise, stopSlot_mask]
  split
  · rw [slot_stopSlot s i c (by decide), if_pos rfl]
  · next h => rw [slot_stopSlot s i c (by decide), if_neg h]

/-! ### Power-up and recovery -/

theorem Slot.halt_with_inFlight (x : Slot) (f : Option InFlight) :
    Slot.halt { x with inFlight := f } = { x.halt with inFlight := f } := rfl

theorem slot_enterRecovering (s : State) (i : SlotId) (c : RestartCause) (j : SlotId) :
    (s.enterRecovering i c).slot j =
      if j = i then Slot.raised ((s.slot i).recovering c s.now) .recovery s.noticeMask else s.slot j := by
  have hm : ∀ f : Slot → Slot, ((s.releaseReference i).modSlot i f).noticeMask = s.noticeMask := fun f =>
    releaseReference_keeps s i .mask (by decide)
  rw [State.enterRecovering, slot_raise, hm]
  split
  · rw [State.slot_modSlot_same, slot_releaseReference, if_pos rfl]
    obtain ⟨f, hx, _, _⟩ := (s.slot i).released_with
    rw [hx, Slot.halt_with_inFlight]; rfl
  · next h => rw [State.slot_modSlot_ne _ _ h, slot_releaseReference, if_neg h]

theorem slot_recoveryDecision (s : State) (i : SlotId) (c : FaultCause) (d : Half) (j : SlotId) :
    (s.recoveryDecision i c d).slot j =
      if j = i then
        if (s.slot i).profile.autoRecover && (s.slot i).recoveryAttempts < 2 then
          Slot.raised
            (Slot.recovering { s.slot i with recoveryAttempts := (s.slot i).recoveryAttempts + 1 } .part s.now) .recovery
            s.noticeMask
        else (s.slot i).faulted c d s.now s.noticeMask
      else s.slot j := by
  unfold State.recoveryDecision
  split
  · rw [slot_resolveDeferred_of_not_ready, slot_enterRecovering]
    · split
      · simp
      · next h => exact State.slot_modSlot_ne _ _ h
    · rw [slot_enterRecovering, if_pos rfl]; exact SlotState.noConfusion
  · rw [slot_enterFault]

theorem slot_enterPowering (s : State) (i j : SlotId) :
    (s.enterPowering i).slot j =
      if j = i then
        { s.slot i with
          state := .powering
          power := (s.slot i).power.on s.now (s.slot i).profile.inrushBlank
          settle := some ⟨s.now, max (s.slot i).profile.inrushBlank Config.settleMinMs⟩
          offTimer := none }
      else s.slot j := State.slot_modSlot s i j _

theorem slot_startExchange (s : State) (i : SlotId) (n : Nat) (p : ExchangePurpose) (j : SlotId) :
    (s.startExchange i n p).slot j =
      if j = i then
        Slot.raiseFrame { s.slot i with link := { (s.slot i).link with exchange := some ⟨n, p, none⟩ } } kindLink 0
          [BitVec.ofNat 8 n]
      else s.slot j := State.slot_modSlot s i j _

theorem slot_leaveBridge_ne (h : j ≠ i) : (s.leaveBridge i).slot j = s.slot j := State.slot_modSlot_ne s _ h

theorem slot_enterAborting (s : State) (i j : SlotId) :
    (s.enterAborting i).slot j = if j = i then (s.slot i).released.abortingFrom else s.slot j := by
  rw [State.enterAborting, State.slot_modSlot]
  split
  · rw [slot_releaseReference, if_pos rfl]; rfl
  · next h => rw [slot_releaseReference, if_neg h]

/-! ### Sets of slots -/

/-- One change on each slot of a list of different slots. -/
theorem slot_foldl_modSlot (f : SlotId → Slot → Slot) (l : List SlotId) (hl : l.Nodup) (s : State) (j : SlotId) :
    (l.foldl (fun s i => s.modSlot i (f i)) s).slot j = if j ∈ l then f j (s.slot j) else s.slot j := by
  induction l generalizing s with
  | nil => simp
  | cons a l ih =>
    simp only [List.foldl_cons, List.nodup_cons] at *
    rw [ih hl.2, State.slot_modSlot]
    by_cases h : j = a
    · subst h; simp [hl.1]
    · simp [h]

theorem foldl_modSlot_keeps (f : SlotId → Slot → Slot) (l : List SlotId) (s : State) :
    keepsBut [.slots] s (l.foldl (fun s i => s.modSlot i (f i)) s) :=
  keepsBut.foldl _ (fun s i => modSlot_keeps s i _) l s

theorem slotsOf_nodup (m : SlotSet) : (slotsOf m).Nodup := (List.nodup_finRange 24).filter _

@[simp] theorem mem_slotsOf (m : SlotSet) (i : SlotId) : i ∈ slotsOf m ↔ m.getLsbD i.val = true := by simp [slotsOf]

theorem slot_modSlots (f : SlotId → Slot → Slot) (s : State) (j : SlotId) :
    (s.modSlots f).slot j = f j (s.slot j) := by
  rw [State.modSlots, slot_foldl_modSlot _ _ (List.nodup_finRange 24)]; simp

/-! ### The transmitter

Raising, sending and ending frames change a slot's transmitter and its transmit counter, and nothing else. -/

/-- A slot that differs in its transmitter and transmit counter only. -/
def Slot.sendsAs (x y : Slot) : Prop := ∃ t n, y = { x with tx := t, link := { x.link with txCounter := n } }

theorem Slot.sendsAs_refl (x : Slot) : x.sendsAs x := ⟨x.tx, x.link.txCounter, rfl⟩

theorem Slot.sendsAs_trans {x y z : Slot} (h1 : x.sendsAs y) (h2 : y.sendsAs z) : x.sendsAs z := by
  obtain ⟨t1, n1, rfl⟩ := h1; obtain ⟨t2, n2, rfl⟩ := h2; exact ⟨t2, n2, rfl⟩

theorem Slot.transmit_sendsAs (x : Slot) : x.sendsAs x.transmit := by
  unfold Slot.transmit; split
  · split
    · exact x.sendsAs_refl
    · exact ⟨_, _, rfl⟩
  · exact x.sendsAs_refl

theorem Slot.raiseFrame_sendsAs (x : Slot) (k service : Byte) (p : List Byte) : x.sendsAs (x.raiseFrame k service p) :=
  Slot.sendsAs_trans ⟨_, x.link.txCounter, rfl⟩ (Slot.transmit_sendsAs _)

theorem Slot.frameEnded_sendsAs (x : Slot) : x.sendsAs x.frameEnded :=
  Slot.sendsAs_trans ⟨_, x.link.txCounter, rfl⟩ (Slot.transmit_sendsAs _)

/-- A step of the time base on the line begins at most the frame that waits first. -/
theorem Slot.lineStep_sendsAs (x : Slot) : x.sendsAs x.lineStep := by
  unfold Slot.lineStep; split
  · exact x.sendsAs_refl
  · exact x.frameEnded_sendsAs
  · exact ⟨_, x.link.txCounter, rfl⟩

/-- The slot a frame has been raised on, field by field: every field but the transmitter and the transmit counter. -/
theorem Slot.raiseFrame_eq (x : Slot) (k service : Byte) (p : List Byte) :
    x.raiseFrame k service p =
      { x with
        tx := (x.raiseFrame k service p).tx
        link := { x.link with txCounter := (x.raiseFrame k service p).link.txCounter } } := by
  obtain ⟨t, n, h⟩ := x.raiseFrame_sendsAs k service p
  rw [h]

theorem Slot.frameEnded_eq (x : Slot) :
    x.frameEnded = { x with tx := x.frameEnded.tx, link := { x.link with txCounter := x.frameEnded.link.txCounter } } := by
  obtain ⟨t, n, h⟩ := x.frameEnded_sendsAs
  rw [h]

theorem Slot.transmit_eq (x : Slot) :
    x.transmit = { x with tx := x.transmit.tx, link := { x.link with txCounter := x.transmit.link.txCounter } } := by
  obtain ⟨t, n, h⟩ := x.transmit_sendsAs
  rw [h]

end Sys2Proof.Machine
end

