-- ==== Sys2Proof/WellFormed.lean ====
section
/-! DEFINITION. Which terms of `Instr` are commands the hardware can meet: bodies of the wrong shape really are, a
malformed transfer really fails a check, and lists fit the messages and frames that carry them. -/

namespace Sys2Proof

/-- A body of the wrong shape is the one that `decodeRequest` finds in those bytes; the fields of a shaped body fit
`fits`. -/
def bodyWellFormed {α : Type} (kind : Nat) (command : Body α → Instr) (fits : α → Bool) : Body α → Bool
  | .shaped fields => fits fields
  | .misshapen bytes => decodeRequest kind 0 bytes == some (command (.misshapen bytes))

/-- The most bytes a body holds (10.1.1). -/
def bodyLimit : Nat := Config.messageLimit - 6

/-- A frame's payload holds at most 516 bytes (R31). -/
def payloadFits (payload : List Byte) : Bool := payload.length ≤ 516

/-- The checks of a command's operands. -/
def Instr.wellFormed : Instr → Bool
  | .powerOnReset _ _ => true
  | .hostPortConfigured => true
  | .hostPortDetach => true
  | .malformedTransfer transfer => (transferFailure transfer).isSome
  | .identify _ body => bodyWellFormed 0x01 (.identify 0) (fun _ => true) body
  | .restart _ body => bodyWellFormed 0x02 (.restart 0) (fun _ => true) body
  | .setProfile _ body => bodyWellFormed 0x03 (.setProfile 0) (fun _ => true) body
  | .powerOn _ body => bodyWellFormed 0x04 (.powerOn 0) (fun _ => true) body
  | .powerOff _ body => bodyWellFormed 0x04 (.powerOff 0) (fun _ => true) body
  | .cycle _ body => bodyWellFormed 0x04 (.cycle 0) (fun _ => true) body
  | .resetSlot _ body => bodyWellFormed 0x04 (.resetSlot 0) (fun _ => true) body
  | .clearFault _ body => bodyWellFormed 0x04 (.clearFault 0) (fun _ => true) body
  | .disable _ body => bodyWellFormed 0x04 (.disable 0) (fun _ => true) body
  | .enable _ body => bodyWellFormed 0x04 (.enable 0) (fun _ => true) body
  | .querySlots _ body => bodyWellFormed 0x05 (.querySlots 0) (fun _ => true) body
  | .defineGroup _ body => bodyWellFormed 0x06 (.defineGroup 0) (fun _ => true) body
  | .undefineGroup _ body => bodyWellFormed 0x06 (.undefineGroup 0) (fun _ => true) body
  | .setFixtureLoad _ body => bodyWellFormed 0x07 (.setFixtureLoad 0) (fun _ => true) body
  | .setFixtureClear _ body => bodyWellFormed 0x07 (.setFixtureClear 0) (fun _ => true) body
  | .setTranslation _ body => bodyWellFormed 0x08 (.setTranslation 0) (fun f => f.pairs.length ≤ 255) body
  | .direct _ body => bodyWellFormed 0x09 (.direct 0) (fun f => 16 + f.payload.length ≤ bodyLimit) body
  | .push _ body => bodyWellFormed 0x0A (.push 0) (fun _ => true) body
  | .cancel _ body => bodyWellFormed 0x0B (.cancel 0) (fun _ => true) body
  | .queryOperations _ body => bodyWellFormed 0x0C (.queryOperations 0) (fun _ => true) body
  | .imageDefine _ body => bodyWellFormed 0x0D (.imageDefine 0) (fun _ => true) body
  | .imageWrite _ body => bodyWellFormed 0x0E (.imageWrite 0) (fun f => 5 + f.data.length ≤ bodyLimit) body
  | .imageWriteAccessDone lostOne lostTwo => (lostOne ++ lostTwo).all (· < Config.blockWords)
  | .imageCommit _ body => bodyWellFormed 0x0F (.imageCommit 0) (fun _ => true) body
  | .imageRelease _ body => bodyWellFormed 0x10 (.imageRelease 0) (fun _ => true) body
  | .imageQuery _ body => bodyWellFormed 0x11 (.imageQuery 0) (fun _ => true) body
  | .measure _ body => bodyWellFormed 0x12 (.measure 0) (fun _ => true) body
  | .pressKey _ body => bodyWellFormed 0x13 (.pressKey 0) (fun _ => true) body
  | .readConsole _ body => bodyWellFormed 0x14 (.readConsole 0) (fun _ => true) body
  | .openBridge _ body => bodyWellFormed 0x15 (.openBridge 0) (fun _ => true) body
  | .bridgeData _ body => bodyWellFormed 0x16 (.bridgeData 0) (fun f => 1 + f.data.length ≤ bodyLimit) body
  | .closeBridge _ body => bodyWellFormed 0x17 (.closeBridge 0) (fun _ => true) body
  | .readEvents _ body => bodyWellFormed 0x18 (.readEvents 0) (fun _ => true) body
  | .setNoticeMask _ body => bodyWellFormed 0x19 (.setNoticeMask 0) (fun _ => true) body
  | .receiptSent => true
  | .gatherReportSent => true
  | .bridgeOutSent => true
  | .noticeBegun => true
  | .presenceContactChange _ _ _ => true
  | .presenceDebounceExpiry _ => true
  | .interlockInputChange _ _ => true
  | .interlockSettleExpiry _ => true
  | .settleTimerExpiry _ => true
  | .bootAllowanceExpiry _ => true
  | .resyncAllowanceExpiry _ => true
  | .recoveryOffTimerExpiry _ => true
  | .hello _ _ _ _ payload => payloadFits payload
  | .linkAck _ _ _ payload => payloadFits payload
  | .rateExchangeWaitExpiry _ => true
  | .result _ _ _ payload => payloadFits payload
  | .text _ _ _ payload => payloadFits payload
  | .streamCredit _ _ _ payload => payloadFits payload
  | .formatError _ frame => payloadFits frame.payload
  | .crcError _ => true
  | .receiverStallExpiry _ => true
  | .linkFrameSent _ => true
  | .abortFrameSent _ => true
  | .streamOpenSent _ => true
  | .streamDataSent _ => true
  | .streamChunkRead _ lostOne lostTwo => (lostOne ++ lostTwo).all (· < Config.blockWords)
  | .damageStop _ => true
  | .memberWindowExpiry _ => true
  | .queueLimitExpiry _ => true
  | .abortWaitExpiry _ => true
  | .keyPressExpiry _ => true
  | .blankingWindowExpiry _ => true
  | .currentSample _ _ => true
  | .faultRequest _ => true
  | .bridgeIdleTimerExpiry _ => true
  | .breakEnd _ => true
  | .rawByteReceived _ _ => true
  | .bridgeOutGatheringExpiry _ => true
  | .bridgeByteSent _ => true
  | .clearingJobEnd => true
  | .verificationJobEnd lostOne lostTwo => (lostOne ++ lostTwo).all (· < 524288)
  | .append _ => true
  | .withdraw _ => true
  | .startReport _ => true
  | .resultReport _ => true
  | .windowExpiryReport _ => true
  | .queueLimitReport _ => true
  | .dropReport _ => true
  | .streamDamageReport _ => true
  | .sequenceErrorFrame _ _ => true

end Sys2Proof
end

