-- ==== Sys2Proof/Tests/Slice0.lean ====
section
/-! SUPPORT. Tests. Expected values come from the spec's own figures (each test names its place); the witnesses show that the
hypotheses of a statement can be met together. -/

namespace Sys2Proof.Tests

open Sys2Proof Sys2Proof.Machine

-- one theorem at a time: each of many kernel evaluations would else hold a thread of its own
set_option Elab.async false

/-! ### Small states -/

/-- The reset state with the port CONFIGURED. -/
def base : State := { State.reset with port := ⟨true, none, false⟩ }

/-- That state with slot 0 as given. -/
def one (x : Slot) : State := base.setSlot 0 x

/-- A seated slot in a state, with its switch and its HELLO as the state has them. -/
def slotIn (st : SlotState) : Slot :=
  let x := Slot.initial st 4 true 0x0F
  { x with
    present := true
    power := { x.power with vbus := st.powered, periodStart := if st.powered then some 0 else none }
    link := { x.link with awaitingHello := !(st.framed && st != .booting), expected := 3 } }

/-- What a command's next state is to show; false where it stops. -/
def after (s : State) (c : Instr) (shows : State → Bool) : Bool :=
  match exec c s with
  | .next t => shows t
  | _ => false

/-- The result codes and details of the receipts that wait. -/
def answers (t : State) : List (ResultCode × Half) := t.uplink.receipts.map fun r => (r.result, r.detail)

/-- A LIVE operation with one QUEUED member, on slot 0. -/
def live : Operation :=
  { tag := 7, work := .directive [1], source := .explicit 1, policy := .all, service := 0x30, timeout := 10000, reply := 64,
    accepted := 0, members := [⟨0, .queued, none⟩], passed := 0, failed := 0, final := 0, reservation := 64, phase := .live }

/-- A stream of image 2, of 600 bytes, in its sending phase. -/
def streamOf (read : ReadState) : InFlight :=
  ⟨some 7, some ⟨0, 100⟩, .stream ⟨2, 1, 600, 0, true, 0, 0, 1, read, .sending⟩⟩

/-- The reset state's port CONFIGURED, and image 2 in a state, with 600 bytes in a window of 256 KiB. -/
def withImage (st : ImageState) : State :=
  base.modImage 2 fun _ => ⟨st, 1, ⟨4, .kib256, 600, some 0, none, .none, 0, 0⟩⟩

/-- 24 nest codes, each with four of its bits set, no two alike. -/
def codes : Vector Byte 24 :=
  #v[0x0F, 0x17, 0x1B, 0x1D, 0x1E, 0x27, 0x2B, 0x2D, 0x2E, 0x33, 0x35, 0x36, 0x39, 0x3A, 0x3C, 0x47, 0x4B, 0x4D, 0x4E,
    0x53, 0x55, 0x56, 0x59, 0x5A]

def profileFields : ProfileFields := ⟨1, 0x01FF, 4, 30000, 1500, 1, 0, 2000, 1500, 20000, 50⟩

def operationFields : OperationFields := ⟨1, 0, 1, 0, 0, 0, 0x30, 500, 0, 0⟩

/-! ### Figures of the spec -/

/-- 00_scope.md, CRC-16: the nine ASCII bytes 123456789. -/
theorem test_crc16_check_value : crc16 [0x31, 0x32, 0x33, 0x34, 0x35, 0x36, 0x37, 0x38, 0x39] = 0x29B1 := by
  decide +kernel

/-- 00_scope.md, CRC-32. -/
theorem test_crc32_check_value : crc32 [0x31, 0x32, 0x33, 0x34, 0x35, 0x36, 0x37, 0x38, 0x39] = 0xCBF43926 := by
  decide +kernel

/-- 5.9.1: T = 500 and 40 bytes at 500,000 bit/s; and the same at index 4. -/
theorem test_directive_window :
    memberWindow (.directive (List.replicate 40 0)) 500 0 = 506 ∧
      memberWindow (.directive (List.replicate 40 0)) 500 4 = 501 := by
  decide +kernel

/-- R104's table, both payload lengths at the five rates. -/
theorem test_directive_allowances :
    (List.range 5).map (allowanceOf (directiveWire 0)) = [6, 3, 1, 1, 1] ∧
      (List.range 5).map (allowanceOf (directiveWire 240)) = [10, 5, 2, 1, 1] := by
  decide +kernel

/-- R105's table. -/
theorem test_push_allowances :
    (List.range 5).map (allowanceOf (pushWire 1048576)) = [21469, 10735, 3579, 1790, 895] ∧
      (List.range 5).map (allowanceOf (pushWire 4194304)) = [85858, 42929, 14310, 7155, 3578] := by
  decide +kernel

/-- 5.9.2: the window of the push and its two extensions. -/
theorem test_push_window_and_extensions :
    memberWindow (.push 2 1 3000000 0) 5000 4 = 7559 ∧
      extendedWindow 7559 ⟨2, 1, 3000000, 0, true, 3000, 1536000, 0, .none, .sending⟩ 4 3 = 8808 ∧
      extendedWindow 8808 ⟨2, 1, 3000000, 0, true, 5000, 2560000, 0, .none, .sending⟩ 3 2 = 9559 := by
  decide +kernel

/-- 5.1.1: a window of 5,001 ms across the wrap. -/
theorem test_window_across_the_wrap : due 3704 ⟨4294966000, 5001⟩ = false ∧ due 3705 ⟨4294966000, 5001⟩ = true := by decide

/-- R149's table, the steady current of 3,999 mA: the ninth sample trips, and the eighth does not (8 × 2,499 = 19,992). -/
theorem test_ninth_sample_trips :
    let slot := fun a : Nat =>
      { one
          { slotIn .ready with
            power := { (slotIn .ready).power with sampleDue := true, accumulator := a, history := List.replicate 60 1500 } } with
        now := 61 }
    after (slot 17493) (.currentSample 0 3999)
        (fun t => (t.slot 0).power.accumulator == 19992 && (t.slot 0).faultRequests == []) = true ∧
      after (slot 19992) (.currentSample 0 3999)
        (fun t => (t.slot 0).power.accumulator == 20000 && (t.slot 0).power.trip == .overcurrent) = true := by
  decide +kernel

/-- 2.13, steps 9 to 11: a sequence error takes 23 to 11 at index 4 and sets the mark. -/
theorem test_score_trace_sequence_error :
    let x := slotIn .busy
    after (one { x with link := { x.link with score := 23, expected := 6, rate := 4 } }) (.text 0 7 0 [65])
      (fun t => (t.slot 0).link.score == 11 && (t.slot 0).link.expected == 8 && (t.slot 0).link.stepDownMark) = true := by
  decide +kernel

/-- 2.13, step 1: the HELLO of an agent with max rate 4 sends LINK(4) with seq 0. -/
theorem test_score_trace_hello :
    after (one (slotIn .booting)) (.hello 0 false 0 0 [1, 0, 2, 0, 4])
      (fun t => (t.slot 0).link.score == 48 && (t.slot 0).link.expected == 1 && (t.slot 0).link.txCounter == 1 &&
        (t.slot 0).tx.sending == some ⟨0x02, 0, 0, [4]⟩) = true := by
  decide +kernel

/-- 4.12: after the FAIL on slot 13 the sum 0 + 5 is below 6, and before it 0 + 6 is not. -/
theorem test_quorum_fails_early :
    let slots : List SlotId := [12, 13, 14, 16, 17, 19]
    let o : Operation := { live with policy := .quorum 6, members := slots.map (⟨·, .queued, none⟩) }
    o.decision = none ∧ { o with failed := 1, final := 1 }.decision = some .fail := by
  decide +kernel

/-- 5.9.2 on the wire: the layouts of a directive frame start with 0xC3 (R31). -/
theorem test_frame_starts : (frameBytes ⟨0x06, 1, 0, []⟩).take 6 = [0xC3, 0x06, 1, 0, 0, 0] := by decide

/-- R192 and 10.6.3: the first seven bytes of IDENTIFY's reply. -/
theorem test_identify_layout :
    after base (.identify 9 (.shaped ()))
      (fun t => t.uplink.receipts.map (fun r => r.reply.layout.take 7) == [[0x7E, 0x1A, 0x00, 0x24, 3, 2, 4]]) = true := by
  decide +kernel

/-! ### Commands -/

/-- R159: a byte appended to a full ring overwrites the oldest. -/
theorem test_text_overwrites_the_oldest :
    let x := Slot.pushByte { slotIn .ready with ring := 1 :: List.replicate 2047 2 } 3
    x.ring.length = 2048 ∧ x.wrapped = true ∧ x.ring.head? = some 2 ∧ x.ring.getLast? = some 3 := by
  decide +kernel

/-- R160: the first byte into an empty ring raises TEXT; R31: TEXT carries 1 to 240 bytes. -/
theorem test_text_event_and_empty_text :
    after (one (slotIn .ready)) (.text 0 3 0 [65]) (fun t => (t.slot 0).pendingEvents == 0x40) = true ∧
      after (one (slotIn .ready)) (.text 0 3 0 []) (fun t => (t.slot 0).link.score == 40) = true := by
  decide +kernel

/-- R138: 1 and 8 credits are 8. -/
theorem test_credit_saturates :
    after (one { slotIn .streaming with inFlight := some (streamOf .waiting) }) (.streamCredit 0 3 0 [8])
      (fun t => (t.slot 0).stream.map (·.credit) == some 8) = true := by
  decide +kernel

/-- R148: a full-scale sample trips with SHORT, in the blanking window too. -/
theorem test_short_in_the_blanking_window :
    after (one { slotIn .powering with power := { (slotIn .powering).power with sampleDue := true, blankLength := 50 } })
      (.currentSample 0 4500)
      (fun t => (t.slot 0).faultRequests == [⟨.short, 4000, 0⟩] && (t.slot 0).power.history == [4000]) = true := by
  decide +kernel

/-- R152: a request of an ended period is discarded. -/
theorem test_fault_request_of_an_ended_period :
    after (one { slotIn .off with faultRequests := [⟨.short, 4000, 0⟩] }) (.faultRequest 0)
      (fun t => (t.slot 0).state == .off && (t.slot 0).faultRecord.isNone) = true := by
  decide +kernel

/-- 7.9.1: the mean of 966 samples of 400 mA and 34 of 2,100 mA. -/
theorem test_measure_mean :
    after
        (one
          { slotIn .fault with
            power := { PowerRecord.initial with history := List.replicate 966 400 ++ List.replicate 34 2100 } })
        (.measure 1 (.shaped 1))
        (fun t => t.uplink.receipts.map (·.reply) ==
          [.measurements [⟨0, false, false, none, .clear, 1000, 2100, 457, 0⟩]]) = true := by
  decide +kernel

/-- R22: a trip_budget of 999 and a rate_ceiling of 5 are clamped, bits 0 and 7 of the detail. -/
theorem test_set_profile_clamps :
    after (one (slotIn .off)) (.setProfile 1 (.shaped { profileFields with mask := 0x81, rateCeiling := 5, tripBudget := 999 }))
      (fun t => answers t == [(.clamped, 0x81)] && (t.slot 0).profile.tripBudget == 1000 &&
        (t.slot 0).profile.rateCeiling == 4) = true := by
  decide +kernel

/-- R24: POWER_ON of a slot in OFF and one that is VACANT. -/
theorem test_power_on_by_state :
    after (one (slotIn .off)) (.powerOn 1 (.shaped 3))
      (fun t => (t.slot 0).state == .powering && (t.slot 0).power.vbus && (t.slot 0).restartCause == .host &&
        t.uplink.receipts.map (·.reply) == [.outcomes [(0, .ok), (1, .wrongState)]]) = true := by
  decide +kernel

/-- R155: 10,001 ms is clamped, and detail bit 0 names the duration. -/
theorem test_press_key_clamps :
    after (one (slotIn .ready)) (.pressKey 1 (.shaped ⟨1, 10001⟩))
      (fun t => answers t == [(.clamped, 1)] && (t.slot 0).power.key == some ⟨0, 10000⟩) = true := by
  decide +kernel

/-- R122: a base that is no multiple of the size, and a window past the store's end. -/
theorem test_image_define_base :
    after base (.imageDefine 1 (.shaped ⟨0, 2, 2⟩)) (fun t => answers t == [(.badBase, 0)]) = true ∧
      after base (.imageDefine 1 (.shaped ⟨0, 32, 0⟩)) (fun t => answers t == [(.badBase, 0)]) = true ∧
      after base (.imageDefine 1 (.shaped ⟨0, 31, 0⟩)) (fun t => answers t == [(.accepted, 0)]) = true := by
  decide +kernel

/-- R166: 2 bytes do not fit where 2,047 wait. -/
theorem test_bridge_data_room :
    after (one { slotIn .bridge with bridge := some ⟨4, none, none, List.replicate 2047 0, none⟩ })
        (.bridgeData 1 (.shaped ⟨0, [1, 2]⟩)) (fun t => answers t == [(.noRoom, 0)]) = true ∧
      after (one { slotIn .bridge with bridge := some ⟨4, none, none, List.replicate 2047 0, none⟩ })
        (.bridgeData 1 (.shaped ⟨0, [1]⟩))
        (fun t => t.uplink.receipts.map (·.reply) == [.freeSpace 0]) = true := by
  decide +kernel

/-- R8 and R83: opening drawer A drops the queue with cause INTERLOCK. -/
theorem test_interlock_drops :
    let s := one { slotIn .ready with queue := [⟨7, 0x30, 0, 500, .directive [1]⟩] }
    after { s with now := 10, interlockA := ⟨true, false, some ⟨0, 10⟩⟩ } (.interlockSettleExpiry .a)
      (fun t => (t.slot 0).state == .inhibited && (t.slot 0).reports == [⟨7, .drop .interlock⟩] &&
        (t.slot 12).state == .vacant && !(t.slot 0).power.vbus) = true := by
  decide +kernel

/-- R13: the third silent boot is a fault, with the allowance's length as detail (R172's 1,000). -/
theorem test_third_silence_is_a_fault :
    let s := fun n : Nat =>
      { one
          { slotIn .booting with
            allowance := some ⟨.resync, ⟨0, 1000⟩⟩, recoveryAttempts := n
            profile := { Profile.default 4 with autoRecover := true } } with
        now := 1000 }
    after (s 1) (.resyncAllowanceExpiry 0)
        (fun t => (t.slot 0).state == .recovering && (t.slot 0).recoveryAttempts == 2) = true ∧
      after (s 2) (.resyncAllowanceExpiry 0)
        (fun t => (t.slot 0).state == .fault && (t.slot 0).faultRecord == some ⟨.noAgent, 1000, 1000, 0⟩) = true := by
  decide +kernel

/-- R33: a TEXT of one byte, whole with its last raw byte, joins the ring and raises the expected value. -/
theorem test_raw_bytes_make_a_frame :
    let bytes := (frameBytes ⟨0x07, 3, 0, [65]⟩).drop 1
    let x := slotIn .busy
    let within : Slot := { x with link := { x.link with receiver := .withinFrame bytes.dropLast ⟨0, 2⟩ } }
    after (one within) (.rawByteReceived 0 (bytes.getLast?.getD 0))
        (fun t => (t.slot 0).ring == [65] && (t.slot 0).link.expected == 4 && (t.slot 0).link.receiver == .hunting) = true ∧
      after (one within) (.rawByteReceived 0 (bytes.getLast?.getD 0 + 1))
        (fun t => (t.slot 0).ring == [] && (t.slot 0).link.score == 40) = true := by
  decide +kernel

/-- R33, R101: a frame stalls 2 ms after its last byte, and not after 1 ms. -/
theorem test_receiver_stall :
    let x := slotIn .busy
    let s := fun now : Count =>
      { one { x with link := { x.link with receiver := .withinFrame [7] ⟨0, 2⟩ } } with now := now }
    after (s 1) (.receiverStallExpiry 0) (fun t => (t.slot 0).link.score == 48) = true ∧
      after (s 2) (.receiverStallExpiry 0) (fun t => (t.slot 0).link.score == 40) = true := by
  decide +kernel

/-- R34, R39: a LINK raised while a DIRECTIVE is sent waits for it, and a HELLO discards a frame that waits. -/
theorem test_frames_wait_for_a_directive :
    let d : Transmitter := ⟨some ⟨0x04, 3, 0, []⟩, [⟨0x02, 0, [3]⟩], none, 1⟩
    (match step (one { slotIn .busy with tx := d }) with
      | .next t => (t.slot 0).tx.sending == some ⟨0x02, 0, 0, [3]⟩ && (t.slot 0).tx.waiting == []
      | _ => false) = true ∧
      after (one { slotIn .busy with tx := { d with left := 2, waiting := [⟨0x06, 0, []⟩] } }) (.hello 0 false 0 0 [1, 0, 2, 0, 4])
        (fun t => (t.slot 0).tx.waiting == [⟨0x02, 0, [4]⟩] && (t.slot 0).tx.sending == some ⟨0x04, 3, 0, []⟩) = true := by
  decide +kernel

/-- R188: a receipt queued while a notice is on the pipe does not begin, and is sent after the notice. -/
theorem test_receipt_waits_for_a_notice :
    let u : Uplink := { Uplink.empty with noticeOnPipe := some ⟨0, 1, none, 0⟩ }
    after { base with uplink := u } (.identify 1 (.shaped ()))
        (fun t => t.uplink.sending.isNone && t.uplink.turns == [.receipt] && t.uplink.sends .receipt) = true ∧
      after { base with uplink := { u with receipts := [⟨1, 1, .accepted, 0, .none⟩], turns := [.receipt] } } .receiptSent
        (fun t => t.uplink.receipts.isEmpty && t.uplink.noticeOnPipe.isNone) = true := by
  decide +kernel

/-- R124, R132: a clearing job with more than one block to do does not end while the write path waits, unless the engine has
had the store to itself before. -/
theorem test_engine_takes_its_turn :
    let e : State := { withImage .clearing with granted := some .engine, jobs := [.clear 2] }
    let w : State := { e with port := ⟨true, some (.imageWrite 1 3 0 [5] false), false⟩ }
    after w .clearingJobEnd (fun t => (t.image 2).state == .clearing) = true ∧
      after e .clearingJobEnd (fun t => (t.image 2).state == .loading) = true ∧
      after { w with engineAlone := true } .clearingJobEnd (fun t => (t.image 2).state == .loading) = true := by
  decide +kernel

/-- R117, R142: a word with two lost bits damages the image and stays so; one lost bit is counted. -/
theorem test_lost_bits_stay_with_the_word :
    let s := ({ withImage .ready with granted := some (.reader 0 2 2048) } : State).setSlot 0
      { slotIn .streaming with inFlight := some (streamOf .granted) }
    after s (.streamChunkRead 0 [] [5])
        (fun t => (t.image 2).state == .damaged && t.lostBits == [131077, 131077] && (t.slot 9).damageStops == [⟨2, 1⟩] &&
          (t.slot 0).stream.map (·.read) == some .failed) = true ∧
      after { s with lostBits := [131077] } (.streamChunkRead 0 [] [])
        (fun t => (t.image 2).fields.corrected == 1 && (t.image 2).state == .ready && t.lostBits == [131077]) = true := by
  decide +kernel

/-- R131, 10.6: the fields of a FREE image that have no flag are absent with 0xFF and 0xFFFF. -/
theorem test_free_image_layout :
    ((Image.layout 0 Image.initial).drop 4).take 2 = [0xFF, 0xFF] ∧ ((Image.layout 0 Image.initial).reverse.take 4).all (· == 0xFF) = true := by
  decide +kernel

/-- R29, R182: with drawer B open, RESTART queues its INHIBIT notices before the ATTACH of a slot of drawer A. -/
theorem test_restart_places_and_then_evaluates :
    let s : State :=
      { one (slotIn .ready) with
        interlockB := ⟨true, true, none⟩, port := ⟨true, none, true⟩
        uplink := { Uplink.empty with receipts := [⟨1, 0x02, .accepted, 0, .none⟩], sending := some .receipt } }
    after s .receiptSent
      (fun t => t.uplink.notices == [12, 13, 14, 15, 16, 17, 18, 19, 20, 21, 22, 23, 0]) = true := by
  decide +kernel

/-- The front of the queue runs, and the rest stays. -/
theorem test_step_takes_the_front :
    (match step { base with pending := [.identify 1 (.shaped ()), .noticeBegun] } with
      | .next t => t.pending == [.noticeBegun] && answers t == [(.accepted, 0)]
      | _ => false) = true := by
  decide +kernel

/-! ### Transfers (10.1.1, R185, 10.6.1) -/

/-- POWER_ON of slots 0 and 17: SLOT_CONTROL 0x04, tag 0x1234, 4 bytes: the set and action 1. -/
theorem test_decode_power_on :
    decodeTransfer [0x04, 0, 0x34, 0x12, 4, 0, 0x01, 0x00, 0x02, 1] = .powerOn 0x1234 (.shaped 0x020001) := by
  decide

/-- DIRECT to group 5 with service 0x30 and two bytes. -/
theorem test_decode_direct :
    decodeTransfer [0x09, 0, 1, 0, 18, 0, 0, 5, 0, 0, 0, 0, 0, 0, 0x30, 0xF4, 1, 0, 0, 0, 0, 0, 0xAA, 0xBB] =
      .direct 1 (.shaped ⟨⟨0, 5, 0, 0, 0, 0, 0x30, 500, 0, 0⟩, [0xAA, 0xBB]⟩) := by
  decide

/-- IMAGE_WRITE to image 2 at offset 0x00010000. -/
theorem test_decode_image_write :
    decodeTransfer [0x0E, 0, 2, 0, 6, 0, 2, 0, 0, 1, 0, 0x5A] = .imageWrite 2 (.shaped ⟨2, 65536, [0x5A]⟩) := by decide

/-- SET_TRANSLATION with one pair, and with a count that does not fit its length. -/
theorem test_decode_translation :
    decodeTransfer [0x08, 0, 3, 0, 6, 0, 1, 0, 0, 1, 0x30, 0x41] = .setTranslation 3 (.shaped ⟨1, [(0x30, 0x41)]⟩) ∧
      decodeTransfer [0x08, 0, 3, 0, 6, 0, 1, 0, 0, 2, 0x30, 0x41] =
        .setTranslation 3 (.misshapen [1, 0, 0, 2, 0x30, 0x41]) := by
  decide

/-- CLOSE_BRIDGE, READ_EVENTS, DEFINE_GROUP's undefine flag, SET_FIXTURE's clear flag, SET_PROFILE's length. -/
theorem test_decode_others :
    decodeTransfer [0x17, 0, 1, 0, 1, 0, 9] = .closeBridge 1 (.shaped 9) ∧
      decodeTransfer [0x18, 0, 1, 0, 3, 0, 0, 1, 0] = .readEvents 1 (.shaped 0x100) ∧
      decodeTransfer ([0x06, 0, 1, 0, 13, 0, 4, 1] ++ List.replicate 11 0) = .undefineGroup 1 (.shaped ⟨4, 0, 0, 0, 0, 0⟩) ∧
      decodeTransfer ([0x07, 0, 1, 0, 25, 0, 1] ++ List.replicate 24 0) =
        .setFixtureClear 1 (.shaped (Vector.replicate 24 0)) ∧
      decodeTransfer [0x03, 0, 1, 0, 1, 0, 9] = .setProfile 1 (.misshapen [9]) := by
  decide +kernel

/-- The opcode table gives no row any bits. -/
theorem test_no_table_words : decodeTableWord 8 4 = none := by decide

/-! ### Terms that are no commands -/

theorem test_malformed_transfer_must_fail_a_check :
    (Instr.malformedTransfer [0x01, 0, 1, 0, 0, 0]).wellFormed = false ∧
      (Instr.malformedTransfer [0x1A, 0, 1, 0, 0, 0]).wellFormed = true := by
  decide

theorem test_misshapen_body_must_be_misshapen :
    ∀ c ∈ [Instr.identify 1 (.misshapen []), .restart 1 (.misshapen []), .setProfile 1 (.misshapen (List.replicate 23 0)),
      .powerOn 1 (.misshapen [1, 0, 0, 1]), .powerOff 1 (.misshapen [1, 0, 0, 2]), .cycle 1 (.misshapen [9]),
      .resetSlot 1 (.misshapen [9]), .clearFault 1 (.misshapen [9]), .disable 1 (.misshapen [9]),
      .enable 1 (.misshapen [9]), .querySlots 1 (.misshapen [1, 0, 0]), .defineGroup 1 (.misshapen (List.replicate 13 0)),
      .undefineGroup 1 (.misshapen (List.replicate 13 1)), .setFixtureLoad 1 (.misshapen (List.replicate 25 0)),
      .setFixtureClear 1 (.misshapen (List.replicate 25 1)), .setTranslation 1 (.misshapen [1, 0, 0, 0]),
      .direct 1 (.misshapen (List.replicate 16 0)), .push 1 (.misshapen (List.replicate 17 0)), .cancel 1 (.misshapen [1, 0]),
      .queryOperations 1 (.misshapen []), .imageDefine 1 (.misshapen [0, 0, 0]), .imageWrite 1 (.misshapen [0, 0, 0, 0, 0]),
      .imageCommit 1 (.misshapen [0, 0, 0, 0, 0]), .imageRelease 1 (.misshapen [0]), .imageQuery 1 (.misshapen []),
      .measure 1 (.misshapen [1, 0, 0]), .pressKey 1 (.misshapen [1, 0, 0, 0, 0]), .readConsole 1 (.misshapen [0]),
      .openBridge 1 (.misshapen [0, 0]), .bridgeData 1 (.misshapen [0]), .closeBridge 1 (.misshapen [0]),
      .readEvents 1 (.misshapen [1, 0, 0]), .setNoticeMask 1 (.misshapen [0, 0])], c.wellFormed = false := by
  decide +kernel

theorem test_lists_must_fit_their_messages :
    ∀ c ∈ [Instr.setTranslation 1 (.shaped ⟨1, List.replicate 256 (0, 0)⟩),
      .direct 1 (.shaped ⟨operationFields, List.replicate 8171 0⟩), .imageWrite 1 (.shaped ⟨0, 0, List.replicate 8182 0⟩),
      .bridgeData 1 (.shaped ⟨0, List.replicate 8186 0⟩), .hello 0 false 0 0 (List.replicate 517 0),
      .linkAck 0 0 0 (List.replicate 517 0), .result 0 0 0 (List.replicate 517 0), .text 0 0 0 (List.replicate 517 0),
      .streamCredit 0 0 0 (List.replicate 517 0), .formatError 0 ⟨7, 0, 0, List.replicate 517 0⟩,
      .imageWriteAccessDone [64] [], .streamChunkRead 0 [0] [64], .verificationJobEnd [524288] []], c.wellFormed = false := by
  decide +kernel

/-! ### Witnesses: the hypotheses of each statement can be met together -/

theorem test_StepRunsFrontCommand_witness : ({ base with pending := [.noticeBegun, .receiptSent] } : State).pending =
    .noticeBegun :: [.receiptSent] := by
  decide

theorem test_IdleStepMovesTheTimeBase_witness :
    base.pending = [] ∧ base.owes = false ∧ (one { slotIn .off with tx := ⟨some ⟨4, 0, 0, []⟩, [], none, 1⟩ }).owes = false ∧
      (one { slotIn .ready with power := { (slotIn .ready).power with sampleDue := true } }).owes = true := by
  decide +kernel

theorem test_RequestsWaitForIntake_witness :
    isRequest (.identify 1 (.shaped ())) = true ∧ State.reset.port.configured = false ∧
      ({ base with port := ⟨true, some (.openBridge 1 0 none), false⟩ } : State).port.inProgress ≠ none ∧
      ({ base with port := ⟨true, none, true⟩ } : State).port.intakeHold = true ∧
      8 ≤ ({ Uplink.empty with receipts := List.replicate 8 ⟨1, 1, .accepted, 0, .none⟩ } : Uplink).receipts.length := by
  decide

/-- Every check of R185 at its boundary. -/
theorem test_MalformedRequestsGetTheirReceipt_witness :
    base.intakeOpen = true ∧ misshapenBody (.restart 5 (.misshapen [0])) = some (5, 2) ∧ [1, 0, 0, 0, 0].length < 6 ∧
      8192 < (List.replicate 8193 (0 : Byte)).length ∧ fieldAt [1, 0, 9, 0, 1, 0] 4 2 ≠ 6 - 6 ∧
      (byteAt [0, 0, 9, 0, 0, 0] 0).toNat < 1 ∧ 25 < (byteAt [26, 0, 9, 0, 0, 0] 0).toNat ∧
      byteAt [1, 1, 9, 0, 0, 0] 1 ≠ 0 := by
  decide +kernel

theorem test_RestartReturnsToPowerOnValues_witness :
    let s : State :=
      { base with
        port := ⟨true, none, true⟩
        uplink := { Uplink.empty with receipts := [⟨5, 2, .accepted, 0, .none⟩], sending := some .receipt } }
    base.intakeOpen = true ∧ s.uplink.sends .receipt = true ∧ s.uplink.receipts = ⟨5, 0x02, .accepted, 0, .none⟩ :: [] ∧
      s.port.intakeHold = true := by
  decide

theorem test_UplinkSendsTheFirstClass_witness :
    let r : Receipt := ⟨5, 1, .accepted, 0, .none⟩
    let g := live.report .pass 0
    let u : Uplink := { Uplink.empty with receipts := [r], gathers := [g], sending := some .receipt }
    let n : Option Notice := some ⟨3, 1, none, 0⟩
    u.receipts = r :: [] ∧ u.sends .receipt = true ∧
      ¬ (r.kind = 0x02 ∧ r.result = .accepted ∧ base.port.intakeHold = true) ∧
      ({ u with sending := none, noticeOnPipe := n, turns := [.receipt] } : Uplink).sends .receipt = true ∧
      ({ u with sending := some .gather } : Uplink).sends .gather = true ∧ u.gathers = g :: [] ∧
      base.uplink.sending = none := by
  decide

theorem test_BridgeOutSentBuildsTheNext_witness :
    let u : Uplink := { Uplink.empty with bridgeOuts := [⟨0, false, [65]⟩], sending := some .bridgeOut }
    u.sends .bridgeOut = true ∧ u.bridgeOuts = ⟨0, false, [65]⟩ :: [] := by
  decide

theorem test_NoticeCarriesThePendingSet_witness :
    let s : State := { base with uplink := { Uplink.empty with notices := [3, 4] } }
    s.uplink.notices = 3 :: [4] ∧ s.port.configured = true ∧ s.uplink.sending = none ∧ s.uplink.receipts = [] ∧
      s.uplink.gathers = [] ∧ s.uplink.bridgeOuts = [] := by
  decide

theorem test_PortDetachEmptiesTheUplink_witness : State.reset.port.configured = false ∧ base.port.configured = true := by
  decide

/-- One bank: slot 12 is the first that is not fitted. -/
theorem test_SetsWithUnfittedSlotsAreRefused_witness :
    let s : State := { base with straps := ⟨false, true⟩ }
    s.intakeOpen = true ∧ s.straps.namesUnfitted 0x001000 = true ∧ s.straps.namesUnfitted 0x000FFF = false ∧
      profileCodes { profileFields with set := 0x001000 } = true ∧ (0 : Byte).toNat ≤ 2 ∧ 1 ≤ (1 : Byte).toNat ∧
      (31 : Byte).toNat ≤ 31 := by
  decide

theorem test_SetProfileWritesThePresentFields_witness :
    let f := profileFields
    base.intakeOpen = true ∧ base.straps.namesUnfitted f.set = false ∧
      (f.mask.toNat < 512 ∧ (f.mask.getLsbD 3 = true → f.autostart.toNat ≤ 1) ∧
        (f.mask.getLsbD 4 = true → f.autoRecover.toNat ≤ 1)) ∧
      ¬ ({ f with mask := 512 } : ProfileFields).mask.toNat < 512 ∧ 0 ∈ slotsOf f.set := by
  decide +kernel

/-- The hypotheses of SlotControlDecidesByState, PowerActionsSwitchTheSlot, ResetSlotAndClearFault and
DisableAndEnableMoveTheInhibit: slot 0 in each state they name. -/
theorem test_SlotControl_witness :
    let set : SlotSet := 1
    let s := fun st => one (slotIn st)
    (∀ st ∈ [SlotState.off, .ready, .fault, .inhibited, .vacant, .bridge],
      (s st).intakeOpen = true ∧ (s st).straps.namesUnfitted set = false ∧ ((s st).slot 0).state = st) ∧
      0 ∈ slotsOf set ∧ SlotState.powered .ready = true ∧ ((s .fault).slot 0).present = true := by
  decide +kernel

/-- The hypotheses of QueriesReportAndChangeNothing, PressKeyActsOnPoweredSlots and IdentifyReportsThePart. -/
theorem test_Queries_witness :
    base.intakeOpen = true ∧ base.straps.namesUnfitted 0xFFFFFF = false ∧ (one (slotIn .ready)).intakeOpen = true ∧
      ((one (slotIn .ready)).slot 0).power.vbus = true := by
  decide +kernel

theorem test_EventsAreReadAndMasked_witness :
    base.intakeOpen = true ∧ base.straps.namesUnfitted 3 = false ∧ 256 ≤ (256 : Half).toNat ∧ (255 : Half).toNat < 256 := by
  decide

/-- Groups 0, 1, 31 and 32; policies 2 and 3. -/
theorem test_GroupsAreDefinedAndUndefined_witness :
    let f : GroupFields := ⟨31, 0x00FF00, 2, 6, 10000, 64⟩
    base.intakeOpen = true ∧ 2 < ({ f with policy := 3 } : GroupFields).policy.toNat ∧ f.policy.toNat ≤ 2 ∧
      ({ f with group := 0 } : GroupFields).group.toNat = 0 ∧ 31 < ({ f with group := 32 } : GroupFields).group.toNat ∧
      1 ≤ ({ f with group := 1 } : GroupFields).group.toNat ∧ f.group.toNat ≤ 31 ∧
      base.straps.namesUnfitted f.members = false := by
  decide

theorem test_FixtureLoadChecksTheCodes_witness :
    let bad := codes.set 1 0x07
    let twice := codes.set 2 0x0F
    base.intakeOpen = true ∧ (∀ i : SlotId, codeWeight (codes.get i) = 4) ∧
      (∀ i j : SlotId, i < j → codes.get i ≠ codes.get j) ∧ codeWeight (bad.get 1) ≠ 4 ∧
      (∀ j < (1 : SlotId), codeWeight (bad.get j) = 4) ∧ (∀ i : SlotId, codeWeight (twice.get i) = 4) ∧
      twice.get 0 = twice.get 2 ∧ ∀ l < (2 : SlotId), ∀ k < l, twice.get k ≠ twice.get l := by
  decide +kernel

theorem test_TranslationsReplaceTheTables_witness :
    let pairs := fun n : Nat => (List.range n).map fun k => ((BitVec.ofNat 8 k, 0) : Byte × Byte)
    base.intakeOpen = true ∧ base.straps.namesUnfitted 1 = false ∧ 8 < (pairs 9).length ∧ (pairs 8).length ≤ 8 ∧
      ((pairs 8).map (·.1)).Nodup ∧ ¬ ((pairs 1 ++ pairs 2).map (·.1)).Nodup := by
  decide +kernel

/-- A selector of 2, a tag in use, a full table, an UNDEFINED group, a payload of 241 bytes, images 7 and 8. -/
theorem test_OperationsAreRefusedInOrder_witness :
    let f := operationFields
    let s : State := { base with ops := [live] }
    base.intakeOpen = true ∧ 1 < ({ f with selector := 2 } : OperationFields).selector.toNat ∧ 7 ∈ s.ops.map (·.tag) ∧
      16 ≤ (List.replicate 16 live).length ∧ base.group 5 = none ∧ 240 < (List.replicate 241 (0 : Byte)).length ∧
      (base.image 7).state = .free ∧ ¬ (8 : Byte).toNat < 8 ∧ ((withImage .loading).image 2).state = .loading := by
  decide +kernel

theorem test_OperationsAreAccepted_witness :
    let f := operationFields
    let g : OperationFields := { f with selector := 0 }
    base.intakeOpen = true ∧ f.selector.toNat ≤ 1 ∧ f.policyPresent.toNat ≤ 1 ∧ f.replyPresent.toNat ≤ 1 ∧
      9 ∉ base.ops.map (·.tag) ∧ base.ops.length < 16 ∧ f.selector = 1 ∧ base.straps.namesUnfitted f.set = false ∧
      g.selector = 0 ∧ base.group g.group.toNat = some ⟨0xFFFFFF, .all, 10000, 64⟩ ∧
      (List.replicate 240 (0 : Byte)).length ≤ 240 ∧ ((withImage .ready).image 2).state = .ready ∧
      ((withImage .ready).image 2).fields.expectedCrc = some 0 ∧ (withImage .ready).intakeOpen = true := by
  decide +kernel

/-- No member; ALL with an open member; ANY with one passed; QUORUM 2 with one passed and one, then no, member left. -/
theorem test_CompletionPolicyDecides_witness :
    let r : MemberResult := ⟨.pass, 1, 0, false, []⟩
    let two := fun st : MemberStatus =>
      ({ live with
        members := [⟨0, .passed r, none⟩, ⟨1, st, none⟩], passed := 1, final := if st.isFinal then 2 else 1 } : Operation)
    (let o : Operation := { live with members := [] };
      o.sound ∧ o.members = []) ∧
      (live.sound ∧ live.policy = .all ∧ ∃ m ∈ live.members, m.status.isFinal = false) ∧
      ((two .queued).sound ∧ ∃ m ∈ (two .queued).members, m.status.isPassed = true) ∧
      ((two (.skipped .queueFull)).sound ∧ (∀ m ∈ (two (.skipped .queueFull)).members, m.status.isFinal = true)) ∧
      (let o : Operation := { two .queued with policy := .quorum 2 };
        o.sound ∧ o.policy = .quorum 2) ∧
      (let o : Operation := { two (.skipped .queueFull) with policy := .quorum 2 };
        o.sound ∧ o.policy = .quorum 2) := by
  unfold Operation.sound
  decide +kernel

/-- The hypotheses of CancelEndsALiveOperation: no entry, a LIVE one and a REPORTING one. -/
theorem test_CancelEndsALiveOperation_witness :
    let s : State := { base with ops := [live, { live with tag := 8, members := [], phase := .reporting .pass 0 }] }
    s.intakeOpen = true ∧ 9 ∉ s.ops.map (·.tag) ∧ (s.ops.map (·.tag)).Nodup ∧ live ∈ s.ops ∧ live.phase = .live ∧
      { live with tag := 8, members := [], phase := .reporting .pass 0 } ∈ s.ops := by
  decide +kernel

/-- An append in READY; in FAULT and to a full queue, of a QUEUED member, of a final one and of a REPORTING operation; a
withdraw of the stream in flight. -/
theorem test_SlotRequestsAreTakenByState_witness :
    let e : QueueEntry := ⟨7, 0x30, 0, 10000, .directive [1]⟩
    let s := fun st r f =>
      ({ one { slotIn st with requests := [r], inFlight := f, queue := [e] } with ops := [live] } : State)
    let full := one { slotIn .ready with requests := [.append e], queue := List.replicate 4 { e with tag := 8 } }
    let ended : Operation := { live with members := [⟨0, .skipped .queueFull, none⟩], final := 1 }
    ((s .ready (.append e) none).slot 0).requests = .append e :: [] ∧
      ((s .ready (.append e) none).slot 0).state.queueing = true ∧
      ((s .ready (.append e) none).slot 0).queue.length < 4 ∧
      ((s .fault (.append e) none).slot 0).state.queueing = false ∧ (live.member 0).map (·.status) = some .queued ∧
      (s .fault (.append e) none).ops = [live] ∧ live.tag = e.tag ∧
      (full.slot 0).requests = .append e :: [] ∧ (full.slot 0).state.queueing = true ∧ 4 ≤ (full.slot 0).queue.length ∧
      ended.tag = e.tag ∧ (ended.member 0).map (·.status) = some (.skipped .queueFull) ∧
      ({ live with phase := .reporting .pass 0 } : Operation).phase ≠ .live ∧
      ((s .streaming (.withdraw 7) (some (streamOf .none))).slot 0).requests = .withdraw 7 :: [] ∧
      ((s .streaming (.withdraw 7) (some (streamOf .none))).slot 0).inFlight.bind (·.owner) = some 7 := by
  decide +kernel

theorem test_Reports_witness :
    let r : MemberResult := ⟨.pass, 1, 0, false, []⟩
    let s := fun (body : ReportBody) (st : MemberStatus) =>
      ({ one { slotIn .ready with reports := [⟨7, body⟩] } with
        ops := [{ live with members := [⟨0, st, some (0, 506)⟩] }] } : State)
    (∀ body ∈ [ReportBody.start 5 506, .result 9 .pass [1], .windowExpiry, .queueLimit, .drop .detached, .streamDamage],
      ∀ st ∈ [MemberStatus.queued, .active, .passed r],
        ((s body st).slot 0).reports = ⟨7, body⟩ :: [] ∧ ((s body st).ops.map (·.tag)).Nodup ∧
          ∀ o ∈ (s body st).ops, o.tag = 7 ∧ o.phase = .live ∧ o.member 0 = some ⟨0, st, some (0, 506)⟩) ∧
      (MemberStatus.passed r).isFinal = true ∧ MemberStatus.active.isFinal = false := by
  decide +kernel

/-- The write path waits at the pointer; then slot 0's reader, two places on. -/
theorem test_ArbiterGrantsInTurn_witness :
    let w : State := { base with port := ⟨true, some (.imageWrite 1 2 0 [5] false), false⟩ }
    let r := (withImage .ready).setSlot 0 { slotIn .streaming with inFlight := some (streamOf .waiting) }
    w.granted = none ∧ w.storeRequest (w.arbiterPointer + Fin.ofNat 26 0) = some .writePath ∧ r.granted = none ∧
      (∀ m < 2, r.storeRequest (r.arbiterPointer + Fin.ofNat 26 m) = none) ∧
      r.storeRequest (r.arbiterPointer + Fin.ofNat 26 2) = some (.reader 0 2 2048) ∧
      ({ base with granted := some .engine } : State).granted ≠ none ∧ ∀ p, base.storeRequest p = none := by
  decide +kernel

/-- Base 31 with a size of 1 unit is the last window; base 31 with 2 units, and base 30 with 4, are none. -/
theorem test_ImageDefineOpensAWindow_witness :
    base.intakeOpen = true ∧ 4 < (5 : Byte).toNat ∧ 8 ≤ (8 : Byte).toNat ∧ ((withImage .loading).image 2).state ≠ .free ∧
      (base.image 7).state = .free ∧ 31 % 2 ^ 0 = 0 ∧ 31 + 2 ^ 0 ≤ 32 ∧ 31 % 2 ^ 1 ≠ 0 ∧ 32 < 28 + 2 ^ 3 ∧
      (∀ l, (base.image l).state = .free) ∧ ((withImage .loading).image 7).state = .free ∧
      4 < ((withImage .loading).image 2).fields.base + ((withImage .loading).image 2).fields.size.units ∧
      ((withImage .loading).image 2).fields.base < 4 + 1 := by
  decide +kernel

theorem test_ImageCommitAndReleaseMoveTheState_witness :
    let s := withImage
    8 ≤ (8 : Byte).toNat ∧ (∀ st ∈ [ImageState.free, .clearing, .loading, .verifying, .ready, .damaged],
      (s st).intakeOpen = true ∧ ((s st).image 2).state = st ∧ 0 < ((s st).image 2).fields.highMark ∧
        ((s st).image 2).fields.references = 0) ∧
      ((s .ready).modImage 2 (fun x => { x with fields := { x.fields with references := 1 } })).intakeOpen = true ∧
      (((s .ready).modImage 2 (fun x => { x with fields := { x.fields with references := 1 } })).image
        2).fields.references ≠ 0 := by
  decide +kernel

/-- A write that ends at the window's last byte, and one that ends one byte after it. -/
theorem test_ImageWriteWaitsForTheStore_witness :
    let x := (withImage .loading).image 2
    (withImage .loading).intakeOpen = true ∧ x.state = .loading ∧ x.fields.size.units * 262144 = 262144 ∧
      (262143 : Word).toNat + [(0 : Byte)].length ≤ 262144 ∧ 262144 < (262144 : Word).toNat + [(0 : Byte)].length ∧
      1024 < (List.replicate 1025 (0 : Byte)).length ∧ ((withImage .ready).image 2).state ≠ .loading := by
  decide +kernel

/-- The engine's block in progress, a clearing's and a verification's, while the write path waits, and while slot 0's reader
waits. -/
theorem test_ArbiterGrantsInTurn_engine_witness :
    let e := fun (s : State) (j : Job) => ({ s with granted := some .engine, jobs := [j], arbiterPointer := 2 } : State)
    let w := { e (withImage .clearing) (.clear 2) with port := ⟨true, some (.imageWrite 1 2 0 [5] false), false⟩ }
    let r := (e (withImage .verifying) (.verify 2)).setSlot 0 { slotIn .streaming with inFlight := some (streamOf .waiting) }
    (w.granted = some .engine ∧ w.jobs = .clear 2 :: [] ∧ w.engineBlocks < (w.image 2).fields.size.units * 512 ∧
        Memory.wf w.store = true ∧ w.endEngineAccess.granted = some .writePath) ∧
      r.granted = some .engine ∧ r.jobs = .verify 2 :: [] ∧
        r.engineBlocks < ((r.image 2).fields.highMark + 511) / 512 ∧ (r.image 2).state = .verifying ∧
        r.endEngineAccess.granted = some (.reader 0 2 2048) := by
  decide +kernel

/-- Bytes 510 to 515 of image 2: the first access ends at its block's end. The port is CONFIGURED; and is not, or is again,
after a host port detach. -/
theorem test_WriteAccessStoresItsBlock_witness :
    let data : List Byte := [1, 2, 3, 4, 5, 6]
    let s := fun configured discard =>
      ({ withImage .loading with
        granted := some .writePath, port := ⟨configured, some (.imageWrite 9 2 510 data discard), false⟩ } : State)
    ∀ q ∈ [(true, false), (false, true), (true, true)],
      (s q.1 q.2).granted = some .writePath ∧ (s q.1 q.2).port.inProgress = some (.imageWrite 9 2 510 data q.2) ∧
        (q.2 = false → (s q.1 q.2).port.configured = true) ∧ data ≠ [] ∧ ((s q.1 q.2).image 2).state = .loading ∧
        Memory.wf (s q.1 q.2).store = true ∧
        ((s q.1 q.2).image 2).fields.base * 262144 + 510 + data.length ≤ 8388608 := by
  decide +kernel

/-- A job whose last block is in progress, one with every block done, one that no requester waits beside, one with blocks left
beside the write path, and that one after the engine has had the store to itself; a read of an image in READY, and of one that has been released. -/
theorem test_EngineJobsAndChunkReadsEnd_witness :
    let c := fun n => ({ withImage .clearing with granted := some .engine, jobs := [.clear 2], engineBlocks := n } : State)
    let v : State := { withImage .verifying with granted := some .engine, jobs := [.verify 2], engineBlocks := 1 }
    let beside := { c 0 with port := ⟨true, some (.imageWrite 1 3 0 [5] false), false⟩ }
    let r := fun st => ({ withImage st with granted := some (.reader 0 2 2048) } : State).setSlot 0
      { slotIn .streaming with inFlight := some (streamOf .granted) }
    (∀ n ∈ [0, 511, 512], (c n).granted = some .engine ∧ (c n).jobs = .clear 2 :: [] ∧ Memory.wf (c n).store = true) ∧
      ((c 511).image 2).fields.size.units * 512 - (c 511).engineBlocks = 1 ∧
      ((c 512).image 2).fields.size.units * 512 - (c 512).engineBlocks = 0 ∧
      (∀ p, p ≠ 1 → (c 0).storeRequest p = none) ∧ beside.granted = some .engine ∧ beside.storeRequest 0 ≠ none ∧
      beside.engineAlone = false ∧ ({ beside with engineAlone := true } : State).engineAlone = true ∧
      (v.granted = some .engine ∧ v.jobs = .verify 2 :: [] ∧ (v.image 2).state = .verifying ∧
        (v.image 2).fields.base * 262144 + (v.image 2).fields.highMark ≤ 8388608 ∧
        ((v.image 2).fields.highMark + 511) / 512 - v.engineBlocks = 1) ∧
      ∀ st ∈ [ImageState.ready, .free],
        (r st).granted = some (.reader 0 2 2048) ∧ 512 * (2048 + 1) ≤ 8388608 ∧ ((r st).image 2).state = st ∧
          ((r st).slot 0).stream = some ⟨2, 1, 600, 0, true, 0, 0, 1, .granted, .sending⟩ := by
  decide +kernel

/-- The hypotheses of ReadConsoleEmptiesTheRing, OpenBridgeEntersBridge and BridgeDataAndCloseBridge: slot 0, slot 23 and
slot 24, a slot in READY, one behind a rate exchange and one in BRIDGE. -/
theorem test_Console_witness :
    let x := slotIn .ready
    let b : BridgeRecord := ⟨4, some 500, some ⟨0, 500⟩, List.replicate 2047 0, none⟩
    let s := one { slotIn .bridge with bridge := some b }
    let behind := one { x with link := { x.link with exchange := some ⟨3, .stepDown, some ⟨0, 50⟩⟩ } }
    let u : State :=
      { one x with port := ⟨true, some (.openBridge 5 0 (some 500)), false⟩ }
    (∀ i : SlotId, i.val = (24 : Byte).toNat → base.straps.fitted i = false) ∧ base.straps.fitted 23 = true ∧
      (s.intakeOpen = true ∧ (s.slot 0).state = .bridge ∧ (s.slot 0).bridge = some b ∧ 2048 - b.output.length < 2 ∧
        1 ≤ 2048 - b.output.length) ∧
      ((one x).intakeOpen = true ∧ ((one x).slot 0).state = .ready ∧ ((one x).slot 0).link.exchange = none) ∧
      (behind.intakeOpen = true ∧ (behind.slot 0).state = .ready ∧ (behind.slot 0).link.exchange ≠ none) ∧
      (u.port.configured = true ∧ u.port.inProgress = some (.openBridge 5 0 (some 500)) ∧
        u.slot 0 = { (behind.slot 0) with link := { (behind.slot 0).link with exchange := none } } ∧
        u.now = behind.now) ∧
      3 < (4 : Byte).toNat ∧ (3 : Byte).toNat ≤ 3 := by
  decide +kernel

/-- A bridged slot after its BRIDGE_ENTER, one with it on the line, one with a ring that waits; a break with a LINK behind
it; a slot in OFF. -/
theorem test_BridgeEventsMoveTheBytes_witness :
    let b : BridgeRecord := ⟨4, some 500, some ⟨0, 500⟩, [7, 8], some ⟨498, 2⟩⟩
    let x : Slot := { slotIn .bridge with bridge := some b, ring := [65] }
    let s : State := { one x with now := 500 }
    let broken : Slot := { slotIn .booting with tx := ⟨none, [⟨0x02, 0, [3]⟩], some ⟨498, 2⟩, 0⟩ }
    (s.slot 0).state = .bridge ∧ (s.slot 0).bridge = some b ∧ dueSome s.now b.gathering = true ∧
      (s.slot 0).messageWaiting = false ∧ (s.slot 0).ring ≠ [] ∧ b.output = 7 :: [8] ∧ (s.slot 0).tx.free = true ∧
      (s.slot 0).tx.waiting = [] ∧ (⟨some ⟨0x0B, 3, 0, []⟩, [], none, 1⟩ : Transmitter).free = false ∧
      dueSome s.now b.idleTimer = true ∧ dueSome 500 broken.tx.breaking = true ∧ broken.tx.sending = none ∧
      broken.tx.left = 0 ∧ (slotIn .off).state ≠ .bridge ∧ (slotIn .off).state.framed = false := by
  decide +kernel

/-- An OPEN_BRIDGE that waits behind slot 0's rate exchange: in the statements whose commands refuse it, the slot's state, the
event that moves it, and the request; a HELLO in BOOTING refuses none. -/
theorem test_refusesDeferred_witness :
    let x : Slot :=
      { slotIn .ready with
        link := { (slotIn .ready).link with exchange := some ⟨3, .stepDown, some ⟨950, 50⟩⟩, score := 8, awaitingHello := false }
        contact := false, debounce := some ⟨950, 50⟩, faultRequests := [⟨.short, 4000, 0⟩] }
    let s : State :=
      { one x with
        now := 1000, port := ⟨true, some (.openBridge 5 0 none), false⟩, interlockA := ⟨true, false, some ⟨990, 10⟩⟩ }
    let y := s.slot 0
    (s.port.inProgress = some (.openBridge 5 0 none) ∧ s.port.configured = true ∧ s.deferredOn 0 = true) ∧
      (dueSome s.now y.debounce = true ∧ y.contact ≠ y.present ∧ y.contact = false ∧ y.state ≠ .vacant ∧
        y.state ≠ .inhibited) ∧
      (dueSome s.now (s.interlock .a).settling = true ∧ bankOf 0 = .a ∧ (s.interlock .a).input = true ∧
        y.state ≠ .unfitted) ∧
      (y.state.framed = true ∧ y.state ≠ .booting ∧ due s.now ⟨950, 50⟩ = true ∧ y.link.score ≤ 8) ∧
      (y.faultRequests = ⟨.short, 4000, 0⟩ :: [] ∧ y.state.powered = true ∧ y.power.period = 0) ∧
      ((slotIn .booting).state = .booting ∧ (slotIn .booting).state.framed = true) := by
  decide +kernel

/-- Frames outside R32 in LinkErrorsLowerTheScore, and a slot whose link is not framed. -/
theorem test_Misshapen_witness :
    (([5] : List Byte).length = 1 ∧ 4 < (byteAt [5] 0).toNat) ∧ ([] : List Byte).length ≠ 1 ∧
      (∀ cls : ResultClass, (5 : Byte).toNat ≠ cls.code) ∧ 240 < (List.replicate 241 (0 : Byte)).length ∧
      ([] : List Byte).length = 0 ∧ byteAt [0] 0 = 0 ∧ (slotIn .off).state.framed = false := by
  refine ⟨by decide, by decide, fun cls => ?_, ?_⟩
  · cases cls <;> decide
  · decide +kernel

/-- The timers of PresenceIsDebounced, InterlockSettles, TimersMoveTheSlot and SilenceLeadsToTheRecoveryDecision, each at
the count of its expiry. -/
theorem test_Timers_witness :
    let s := fun x => ({ one x with now := 1000 } : State)
    let t : Option Timer := some ⟨950, 50⟩
    let lock : State := { base with now := 10, interlockA := ⟨true, false, some ⟨0, 10⟩⟩ }
    (let x := (s { slotIn .vacant with present := false, debounce := t }).slot 0;
      base.straps.fitted 0 = true ∧ dueSome 1000 x.debounce = true ∧ x.contact ≠ x.present ∧ x.contact = true) ∧
      (let x := (s { slotIn .ready with contact := false, debounce := t }).slot 0;
        dueSome 1000 x.debounce = true ∧ x.contact ≠ x.present ∧ x.contact = false) ∧
      dueSome lock.now (lock.interlock .a).settling = true ∧ base.straps.banksTwo = true ∧
      (let x := (s { slotIn .powering with settle := t }).slot 0;
        x.state = .powering ∧ dueSome 1000 x.settle = true) ∧
      (let x := (s { slotIn .recovering with offTimer := t }).slot 0;
        x.state = .recovering ∧ dueSome 1000 x.offTimer = true) ∧
      (let p : PowerRecord := { PowerRecord.initial with key := t, blanking := t };
        dueSome 1000 p.key = true ∧ dueSome 1000 p.blanking = true) ∧
      (let x := (s { slotIn .booting with allowance := some ⟨.resync, ⟨0, 1000⟩⟩ }).slot 0;
        x.state = .booting ∧ x.allowance = some ⟨.resync, ⟨0, 1000⟩⟩ ∧ due 1000 ⟨0, 1000⟩ = true) ∧
      (let x := (s { slotIn .aborting with abortWait := some ⟨800, 200⟩ }).slot 0;
        x.state = .aborting ∧ dueSome 1000 x.abortWait = true) := by
  decide +kernel

/-- The hypotheses of HelloStartsTheRateExchange, RateExchangesEnd, GoodFramesAreHandledByState and
LinkErrorsLowerTheScore. -/
theorem test_Link_witness :
    let x := slotIn .busy
    let e := fun purpose => some (⟨3, purpose, some ⟨950, 50⟩⟩ : Exchange)
    (slotIn .booting).state.framed = true ∧ (slotIn .booting).link.awaitingHello = true ∧
      [(1 : Byte), 0, 2, 0, 4].length = 5 ∧ x.state.framed = true ∧ x.link.awaitingHello = false ∧
      (3 : Byte).toNat ≤ 4 ∧ (3 : Byte).toNat = 3 ∧ e .boot = some ⟨3, .boot, some ⟨950, 50⟩⟩ ∧
      e .stepDown = some ⟨3, .stepDown, some ⟨950, 50⟩⟩ ∧ due 1000 ⟨950, 50⟩ = true ∧
      (4 : Byte).toNat = ResultClass.aborted.code ∧ x.ring.length ≤ 2048 ∧ (9 : Byte) ≠ x.link.expected ∧
      frameWellFormed ⟨0x07, 3, 0, []⟩ = false ∧ (0x07 : Byte) ≠ 0x01 ∧ frameWellFormed ⟨0x01, 0, 0, []⟩ = false ∧
      8 < x.link.score ∧ ({ x.link with score := 8 } : LinkState).score ≤ 8 := by
  decide +kernel

/-- The receiver's cases in GoodFramesAreHandledByState and LinkErrorsLowerTheScore: hunting; the fourth byte of a frame; the
last byte of a TEXT; a length of 517; a CRC that differs; a stall at its count; a HELLO of seq 1. -/
theorem test_Receiver_witness :
    let text : Frame := ⟨0x07, 3, 0, [65]⟩
    let at4 := fun byte : Byte => [0x07, 3, 0, 5] ++ [byte]
    (slotIn .busy).link.receiver = .hunting ∧ (slotIn .busy).state.framed = true ∧
      [(0x07 : Byte), 3, 0, 1].length < 5 ∧ text.payload.length ≤ 516 ∧ frameBytes text = 0xC3 :: (frameBytes text).drop 1 ∧
      (at4 2).length = 5 ∧ 516 < fromLittleEndian (((at4 2).drop 3).take 2) ∧
      fromLittleEndian (((at4 0).drop 3).take 2) = 5 ∧
      (crc16 (([0x07, 3, 0, 0, 0, 1, 1] : List Byte).take (0 + 5))).toNat ≠
        fromLittleEndian (([0x07, 3, 0, 0, 0, 1, 1] : List Byte).drop (0 + 5)) ∧
      due 1002 ⟨1000, 2⟩ = true ∧ (1 : Byte) ≠ 0 ∧ (slotIn .busy).link.rate = 0 ∧
      0 < ({ (slotIn .busy).link with rate := 4 } : LinkState).rate := by
  decide +kernel

theorem test_FramesLeaveInOrder_witness :
    let x := slotIn .aborting
    let busy : Slot := { x with tx := ⟨some ⟨0x06, 3, 0, []⟩, [⟨0x02, 0, [3]⟩], none, 0⟩ }
    busy.tx.free = false ∧ x.tx.free = true ∧ x.tx.waiting = [] ∧ busy.tx.breaking = none ∧
      busy.tx.waiting = ⟨0x02, 0, [3]⟩ :: [] ∧ busy.tx.sending = some ⟨0x06, 3, 0, []⟩ ∧
      (⟨none, [], some ⟨0, 2⟩, 0⟩ : Transmitter).breaking ≠ none := by
  decide +kernel

theorem test_ReadySlotTakesItsHeadEntry_witness :
    let x := slotIn .ready
    let d : QueueEntry := ⟨7, 0x30, 0, 500, .directive [1]⟩
    let p : QueueEntry := ⟨7, 0x30, 0, 500, .push 2 1 600 0⟩
    let s := (withImage .ready).setSlot 0 { x with queue := [p, d] }
    x.state = .ready ∧ x.link.exchange = none ∧ x.link.stepDownMark = false ∧ (s.slot 0).queue = p :: [d] ∧
      (s.image 2).state = .ready ∧ (s.image 2).generation = 1 ∧ ((one { x with queue := [d] }).slot 0).queue = d :: [] ∧
      ({ x.link with stepDownMark := true, rate := 1 } : LinkState).stepDownMark = true := by
  decide +kernel

theorem test_StreamSendsChunkByChunk_witness :
    let x := fun read => ({ slotIn .streaming with inFlight := some (streamOf read) } : Slot)
    (slotIn .busy).state ≠ .ready ∧ (slotIn .busy).state ≠ .streaming ∧
      ∀ read ∈ [ReadState.none, .waiting, .granted, .held [1], .failed],
        (x read).state = .streaming ∧ (x read).stream = some ⟨2, 1, 600, 0, true, 0, 0, 1, read, .sending⟩ ∧
          (x read).link.exchange = none ∧ (x read).tx.free = true ∧ (x read).tx.waiting = [] := by
  decide +kernel

/-- A queue whose second entry is the first that is due. -/
theorem test_DeadlinesEndMembers_witness :
    let a : QueueEntry := ⟨1, 0x30, 0, 501, .directive [1]⟩
    let b : QueueEntry := ⟨2, 0x30, 0, 500, .directive [1]⟩
    let x : Slot :=
      { slotIn .streaming with inFlight := some (streamOf .none), damageStops := [⟨2, 1⟩], queue := [a, b] }
    x.damageStops = ⟨2, 1⟩ :: [] ∧ x.state = .streaming ∧
      x.stream = some ⟨2, 1, 600, 0, true, 0, 0, 1, .none, .sending⟩ ∧ x.inFlight = some (streamOf .none) ∧
      dueSome 500 (streamOf .none).window = true ∧ x.queue = [a] ++ b :: [] ∧ due 500 ⟨b.accepted, b.timeout⟩ = true ∧
      (∀ q ∈ [a], due 500 ⟨q.accepted, q.timeout⟩ = false) := by
  decide +kernel

/-- The hypotheses of SamplesFeedTheTripAccumulator and FaultRequestsBelongToTheirPeriod. -/
theorem test_Power_witness :
    let p : PowerRecord := { (slotIn .ready).power with sampleDue := true }
    let r : FaultRequest := ⟨.overcurrent, 2100, 0⟩
    let x : Slot := { slotIn .ready with power := p, faultRequests := [r] }
    x.power.vbus = true ∧ x.power.sampleDue = true ∧ x.power.periodStart = some 0 ∧ x.faultRequests = r :: [] ∧
      x.state.powered = true ∧ x.power.period = r.period ∧
      ¬ ((slotIn .fault).state.powered = true ∧ (slotIn .fault).power.period = r.period) := by
  decide +kernel

/-- The hypotheses of the four invariants, in a state with the port CONFIGURED and a command in front. -/
theorem test_StepKeeps_witness :
    let s : State := { base with pending := [.hostPortDetach] }
    (s.slotsSound ∧ s.operationsSound ∧ s.imagesSound ∧ s.uplinkSound) ∧ ∃ t, step s = .next t := by
  have slot : ∀ i, base.slot i = Slot.initial .vacant 4 false 0 := by decide +kernel
  have image : ∀ k, base.image k = Image.initial := by decide +kernel
  have fitted : ∀ i, base.straps.fitted i = true := by decide +kernel
  have drawer : ∀ i, base.drawerOpen i = false := by decide +kernel
  have holders : ∀ k, base.holders k = 0 := by decide +kernel
  refine ⟨⟨⟨fun i => ?_, fun i => ?_, fun i => ?_⟩, ?_, ⟨⟨fun k => ?_, fun k l _ h => ?_⟩, fun k => ?_, ?_, rfl, rfl⟩, ?_⟩, _, rfl⟩
  · change base.slotStateSound i
    simp only [State.slotStateSound, slot, fitted, drawer]
    decide
  · change (base.slot i).inRange 4
    rw [slot]
    simp [Slot.inRange, Slot.initial, PowerRecord.initial, LinkState.rest, Slot.stream, Profile.inRange, Profile.default,
      Config.scoreStart, Config.scoreMax]
  · change (base.slot i).workSound
    rw [slot]
    simp [Slot.workSound, Slot.initial, LinkState.rest, Slot.stream, SlotState.working]
  · simp [State.operationsSound, base, State.reset, Uplink.empty]
  · change (base.image k).fields.base % (base.image k).fields.size.units = 0 ∧
      (base.image k).fields.base + (base.image k).units ≤ Config.storeUnits ∧
        (base.image k).fields.highMark ≤ (base.image k).fields.size.bytes
    rw [image]
    decide
  · exact absurd (show (base.image k).units = 0 by rw [image]; rfl) h
  · change (base.image k).fields.references = base.holders k ∧ (base.holders k ≠ 0 → _)
    rw [image, holders]
    exact ⟨rfl, fun h => absurd rfl h⟩
  · refine ⟨List.nodup_nil, Nat.le_refl _, fun k => ?_, fun _ _ _ _ _ h => by cases h⟩
    change (Job.clear k ∈ ([] : List Job) ↔ (base.image k).state = .clearing) ∧
      (Job.verify k ∈ ([] : List Job) ↔ (base.image k).state = .verifying)
    rw [image]
    simp [Image.initial]
  · refine ⟨by decide, List.nodup_nil, fun i => ?_, List.nodup_nil, fun i => ?_⟩
    · change i ∈ ([] : List SlotId) ↔ (base.slot i).noticeWaiting = true
      rw [slot]
      simp [Slot.initial]
    · change i ∈ ([] : List SlotId) ↔ (base.slot i).messageWaiting = true
      rw [slot]
      simp [Slot.initial]

end Sys2Proof.Tests
end

section
/-! PROOF. The requests on the group table, the fixture table and the translation tables, and the refusals of an operation
(chapters 3 and 4): what each request's run is for each outcome, and from these the four statements. -/

namespace Sys2Proof.Machine.Tables

variable {s u : State} {A : List Part} {tag : Tag} {kind : Byte} {c : ResultCode} {detail : Half} {reply : Reply}

/-! ### A request's receipt -/

/-- An open intake is on a CONFIGURED port, the one on which the arbiter works (R184, R188). -/
theorem configured_of_intakeOpen (h : s.intakeOpen = true) : s.port.configured = true := by
  simp only [State.intakeOpen, Bool.and_eq_true] at h
  obtain ⟨⟨⟨hc, -⟩, -⟩, -⟩ := h
  exact hc

theorem requestWith_shaped {α : Type} (h : s.intakeOpen = true) (f : α) (run : α → State → State) :
    s.requestWith tag kind (.shaped f) run = run f s := by
  simp [State.requestWith, State.request, h]

/-- A class chosen on a pipe with no message on it is sent at once, or waits for the notice on the pipe (log 11). -/
theorem choose_on_free_pipe (v : Uplink) (k : UplinkClass) (h : v.sending = none) :
    if v.noticeOnPipe = none then (v.choose k).sending = some k
    else (v.choose k).sending = none ∧ k ∈ (v.choose k).turns := by
  cases hn : v.noticeOnPipe with
  | none => simp [Uplink.choose, hn]
  | some n => by_cases hk : k ∈ v.turns <;> simp [Uplink.choose, hn, hk, h]

/-- A receipt queued on a CONFIGURED port joins the receipts: it begins on a free pipe, or is one of the messages that may
begin when the notice on the pipe has ended. -/
theorem answer_receiptJoins (h : s.port.configured = true) :
    receiptJoins s (s.answer tag kind c detail reply) ⟨tag, kind, c, detail, reply⟩ := by
  set q : State :=
    { s with uplink := { s.uplink with receipts := s.uplink.receipts ++ [⟨tag, kind, c, detail, reply⟩] } } with hq
  obtain ⟨hr, hg, hb, hn, hp⟩ := arbitrate_classes q
  refine ⟨⟨hr, hp, ?_⟩, hg, hb, hn⟩
  change if s.uplink.sending = none ∧ s.uplink.noticeOnPipe ≠ none then
      q.arbitrate.uplink.sending = none ∧ UplinkClass.receipt ∈ q.arbitrate.uplink.turns
    else q.arbitrate.uplink.sending = some (s.uplink.sending.getD .receipt)
  cases hs : s.uplink.sending with
  | some k => simp [State.arbitrate, hq, hs]
  | none =>
    have hc := choose_on_free_pipe q.uplink .receipt hs
    have hu : q.arbitrate.uplink = q.uplink.choose .receipt := by
      simp [State.arbitrate, hq, hs, h, Uplink.firstClass]
    rw [hu]
    by_cases hno : s.uplink.noticeOnPipe = none <;> simpa [hq, hno] using hc

theorem answer_onlyAnswers (h : s.intakeOpen = true) :
    onlyAnswers s (s.answer tag kind c detail reply) ⟨tag, kind, c, detail, reply⟩ :=
  ⟨answer_receiptJoins (configured_of_intakeOpen h), answer_keeps s tag kind c detail reply⟩

/-- A change that leaves the port and the uplink alone, and then its receipt. -/
theorem change_then_answer (h : s.intakeOpen = true) (hk : keepsBut A s u) (hu : Part.uplink ∉ A) (hp : Part.port ∉ A) :
    receiptJoins s (u.answer tag kind c detail reply) ⟨tag, kind, c, detail, reply⟩ ∧
      keepsBut (.uplink :: A) s (u.answer tag kind c detail reply) := by
  have hport : u.port = s.port := hk .port hp
  have huplink : u.uplink = s.uplink := hk .uplink hu
  have hj : receiptJoins u (u.answer tag kind c detail reply) ⟨tag, kind, c, detail, reply⟩ :=
    answer_receiptJoins (hport ▸ configured_of_intakeOpen h)
  refine ⟨?_, (hk.mono (List.subset_cons_self _ _)).step (answer_keeps u tag kind c detail reply) (by simp)⟩
  simpa only [receiptJoins, receiptQueued, huplink] using hj

/-! ### Groups -/

theorem setGroup_keeps (s : State) (n : Nat) (g : Option Group) : keepsBut [.groups] s (s.setGroup n g) := by
  intro p hp
  cases p with
  | groups => exact absurd (List.mem_singleton_self _) hp
  | store | jobs | interlocks => exact ⟨rfl, rfl⟩
  | arbiter => exact ⟨rfl, rfl, rfl⟩
  | _ => rfl

/-- Group 0 is computed from the straps (R56), and the others are held. -/
theorem group_congr {t : State} (hs : t.straps = s.straps) (hg : t.groups = s.groups) (n : Nat) :
    t.group n = s.group n := by
  simp only [State.group, hs, hg]

theorem group_answer (n : Nat) : (s.answer tag kind c detail reply).group n = s.group n :=
  have hk := answer_keeps s tag kind c detail reply
  group_congr (hk.straps (by decide)) (hk .groups (by decide)) n

/-- What any group reads after one of groups 1 to 31 has been replaced. -/
theorem group_setGroup {m : Nat} (hm : 1 ≤ m) (hm31 : m ≤ 31) (g : Option Group) (n : Nat) :
    (s.setGroup m g).group n = if n = m then g else s.group n := by
  rcases Nat.eq_zero_or_pos n with rfl | hn
  · rw [if_neg (by omega)]; rfl
  · simp only [State.group, State.setGroup, Nat.ne_of_gt hn, if_false, Vector.getElem?_setIfInBounds]
    by_cases h : n = m
    · have hlt : m - 1 < 31 := by omega
      simp [h, hlt]
    · rw [if_neg (by omega), if_neg h]

theorem policyCode_of_le {code : Byte} (h : code.toNat ≤ 2) (k : Nat) :
    policyCode code k = some (if code = 0 then .all else if code = 1 then .any else .quorum k) := by
  have hcode : code = 0 ∨ code = 1 ∨ code = 2 := by bv_omega
  rcases hcode with rfl | rfl | rfl <;> rfl

theorem policyCode_of_lt {code : Byte} (h : 2 < code.toNat) (k : Nat) : policyCode code k = none := by
  unfold policyCode
  split
  · omega
  · omega
  · omega
  · rfl

section
variable {f : GroupFields}

theorem groupRefusal_of_policy (h : 2 < f.policy.toNat) : groupRefusal f = some .malformed := by
  simp [groupRefusal, policyCode_of_lt h]

theorem groupRefusal_of_group (hp : f.policy.toNat ≤ 2) (hg : f.group.toNat = 0 ∨ 31 < f.group.toNat) :
    groupRefusal f = some .badGroup := by
  simp [groupRefusal, policyCode_of_le hp, hg]

theorem groupRefusal_eq_none (hp : f.policy.toNat ≤ 2) (h1 : 1 ≤ f.group.toNat) (h31 : f.group.toNat ≤ 31) :
    groupRefusal f = none := by
  have hg : ¬ (f.group.toNat = 0 ∨ 31 < f.group.toNat) := by omega
  simp [groupRefusal, policyCode_of_le hp, hg]

theorem groupEntry_eq (hp : f.policy.toNat ≤ 2) :
    groupEntry f =
      { members := f.members
        policy :=
          if f.policy = 0 then .all else if f.policy = 1 then .any else .quorum (clampQuorum f.k.toNat (slotCount f.members))
        timeout := clampTo 1 60000 f.timeout.toNat
        reply := clampTo 0 240 f.replyMax.toNat } := by
  simp only [groupEntry, policyCode_of_le hp, Option.getD_some]

theorem defineGroup_refused (h : s.intakeOpen = true) (hr : groupRefusal f = some c) :
    exec (.defineGroup tag (.shaped f)) s = .next (s.answer tag codeDefineGroup c) := by
  change execDefineGroup tag (.shaped f) s = _
  simp only [execDefineGroup, requestWith_shaped h, hr]

theorem undefineGroup_refused (h : s.intakeOpen = true) (hr : groupRefusal f = some c) :
    exec (.undefineGroup tag (.shaped f)) s = .next (s.answer tag codeDefineGroup c) := by
  change execUndefineGroup tag (.shaped f) s = _
  simp only [execUndefineGroup, requestWith_shaped h, hr]

theorem defineGroup_accepted (h : s.intakeOpen = true) (hr : groupRefusal f = none)
    (hset : s.straps.namesUnfitted f.members = false) :
    exec (.defineGroup tag (.shaped f)) s =
      .next ((s.setGroup f.group.toNat (some (groupEntry f))).answer tag codeDefineGroup (clampResult (groupMask f))
        (groupMask f)) := by
  change execDefineGroup tag (.shaped f) s = _
  simp only [execDefineGroup, requestWith_shaped h, hr, hset, Bool.false_eq_true, if_false]

theorem undefineGroup_accepted (h : s.intakeOpen = true) (hr : groupRefusal f = none) :
    exec (.undefineGroup tag (.shaped f)) s =
      .next ((s.setGroup f.group.toNat none).answer tag codeDefineGroup .accepted) := by
  change execUndefineGroup tag (.shaped f) s = _
  simp only [execUndefineGroup, requestWith_shaped h, hr]

end

/-- Settles O23: the two requests share their refusals, and an accepted one is a replaced entry and then its receipt. -/
theorem groupsAreDefinedAndUndefined : Obligations.GroupsAreDefinedAndUndefined := by
  intro tag f s h
  refine ⟨fun i hi => ?_, fun hp h1 h31 => ?_⟩
  · have refused {c : ResultCode} (hr : groupRefusal f = some c) :
        ∃ t, exec i s = .next t ∧ onlyAnswers s t ⟨tag, 0x06, c, 0, .none⟩ := by
      refine ⟨_, ?_, answer_onlyAnswers h⟩
      rcases List.mem_pair.mp hi with rfl | rfl
      · exact defineGroup_refused h hr
      · exact undefineGroup_refused h hr
    exact ⟨fun hp => refused (groupRefusal_of_policy hp), fun hp hg => refused (groupRefusal_of_group hp hg)⟩
  · have hr := groupRefusal_eq_none hp h1 h31
    have reads (g : Option Group) {c : ResultCode} {detail : Half} (n : Nat) :
        ((s.setGroup f.group.toNat g).answer tag codeDefineGroup c detail .none).group n =
          if n = f.group.toNat then g else s.group n :=
      (group_answer n).trans (group_setGroup h1 h31 g n)
    refine ⟨?_, fun hset => ?_⟩
    · obtain ⟨hj, hk⟩ := change_then_answer h (setGroup_keeps s f.group.toNat none) (by decide) (by decide)
      exact ⟨_, undefineGroup_accepted h hr, hj, hk, reads none⟩
    · intro k mask
      have hmask : mask = groupMask f := by
        have hq : (f.policy.toNat == 2) = (f.policy == 2) := by rw [Bool.eq_iff_iff]; simp [BitVec.toNat_eq]
        simp only [mask, k, hq]
        rfl
      rw [hmask]
      obtain ⟨hj, hk⟩ :=
        change_then_answer h (setGroup_keeps s f.group.toNat (some (groupEntry f))) (by decide) (by decide)
      refine ⟨_, defineGroup_accepted h hr hset, hj, hk, fun n => ?_⟩
      rw [reads, groupEntry_eq hp]
      rfl

/-! ### The fixture table -/

/-- The slots below one slot are all that an ascending search meets before it. -/
theorem finRange_split {n : Nat} (i : Fin n) :
    ∃ before after, List.finRange n = before ++ i :: after ∧ ∀ j ∈ before, j < i := by
  obtain ⟨before, after, h⟩ := List.append_of_mem (List.mem_finRange i)
  refine ⟨before, after, h, fun j hj => ?_⟩
  have hs : (before ++ i :: after).Pairwise (· < ·) := h ▸ List.pairwise_lt_finRange n
  exact (List.pairwise_append.mp hs).2.2 j hj i List.mem_cons_self

theorem find?_finRange_eq_some {n : Nat} {p : Fin n → Bool} {i : Fin n} (hi : p i = true) (hlt : ∀ j < i, p j = false) :
    (List.finRange n).find? p = some i := by
  obtain ⟨before, after, h, hb⟩ := finRange_split i
  exact List.find?_eq_some_iff_append.mpr ⟨hi, before, after, h, fun j hj => by simp [hlt j (hb j hj)]⟩

section
variable {codes : Vector Byte 24}

theorem firstBadCode_eq_some {i : SlotId} (hi : codeWeight (codes.get i) ≠ 4)
    (hlt : ∀ j < i, codeWeight (codes.get j) = 4) : firstBadCode codes = some i :=
  find?_finRange_eq_some (by simp [validCode, hi]) fun j hj => by simp [validCode, hlt j hj]

theorem firstBadCode_eq_none (hw : ∀ i : SlotId, codeWeight (codes.get i) = 4) : firstBadCode codes = none := by
  simp [firstBadCode, validCode, hw]

/-- No slot below `j` has its code. -/
theorem find?_lower_eq_none {j : SlotId} (hne : ∀ k < j, codes.get k ≠ codes.get j) :
    ((List.finRange 24).find? fun k => k < j && codes.get k == codes.get j) = none := by
  simpa using hne

theorem firstDuplicate_eq_none (hne : ∀ i j : SlotId, i < j → codes.get i ≠ codes.get j) : firstDuplicate codes = none :=
  List.findSome?_eq_none_iff.mpr fun j _ => by rw [find?_lower_eq_none fun k hk => hne k j hk]; rfl

/-- The codes of the slots below `j` differ, so the slot found is the only lower one with the code of `j`. -/
theorem firstDuplicate_eq_some {i j : SlotId} (hij : i < j) (he : codes.get i = codes.get j)
    (hlt : ∀ l < j, ∀ k < l, codes.get k ≠ codes.get l) : firstDuplicate codes = some (i, j) := by
  obtain ⟨before, after, h, hb⟩ := finRange_split j
  refine List.findSome?_eq_some_iff.mpr ⟨before, j, after, h, ?_, fun l hl => ?_⟩
  · have hfind : ((List.finRange 24).find? fun k => k < j && codes.get k == codes.get j) = some i :=
      find?_finRange_eq_some (by simp [hij, he]) fun k hk => by simp [← he, hlt i hij k hk]
    rw [hfind]; rfl
  · rw [find?_lower_eq_none (hlt l (hb l hl))]; rfl

theorem setFixtureLoad_badCode {i : SlotId} (h : s.intakeOpen = true) (hb : firstBadCode codes = some i) :
    exec (.setFixtureLoad tag (.shaped codes)) s =
      .next (s.answer tag codeSetFixture .badCode (BitVec.ofNat 16 i.val)) := by
  change execSetFixtureLoad tag (.shaped codes) s = _
  simp only [execSetFixtureLoad, requestWith_shaped h, hb]

theorem setFixtureLoad_duplicate {i j : SlotId} (h : s.intakeOpen = true) (hb : firstBadCode codes = none)
    (hd : firstDuplicate codes = some (i, j)) :
    exec (.setFixtureLoad tag (.shaped codes)) s =
      .next (s.answer tag codeSetFixture .duplicateCode (BitVec.ofNat 16 (i.val + 256 * j.val))) := by
  change execSetFixtureLoad tag (.shaped codes) s = _
  simp only [execSetFixtureLoad, requestWith_shaped h, hb, hd]

theorem setFixtureLoad_accepted (h : s.intakeOpen = true) (hb : firstBadCode codes = none)
    (hd : firstDuplicate codes = none) :
    exec (.setFixtureLoad tag (.shaped codes)) s =
      .next (State.answer { s with fixture := some codes } tag codeSetFixture .accepted) := by
  change execSetFixtureLoad tag (.shaped codes) s = _
  simp only [execSetFixtureLoad, requestWith_shaped h, hb, hd]

theorem setFixtureClear_accepted (h : s.intakeOpen = true) :
    exec (.setFixtureClear tag (.shaped codes)) s =
      .next (State.answer { s with fixture := none } tag codeSetFixture .accepted) := by
  change execSetFixtureClear tag (.shaped codes) s = _
  simp only [execSetFixtureClear, requestWith_shaped h]

end

theorem withFixture_keeps (s : State) (x : Option (Vector Byte 24)) : keepsBut [.fixture] s { s with fixture := x } := by
  intro p hp
  cases p with
  | fixture => exact absurd (List.mem_singleton_self _) hp
  | store | jobs | interlocks => exact ⟨rfl, rfl⟩
  | arbiter => exact ⟨rfl, rfl, rfl⟩
  | _ => rfl

theorem fixture_answer : (s.answer tag kind c detail reply).fixture = s.fixture :=
  answer_keeps s tag kind c detail reply .fixture (by decide)

/-- Settles O24: the two searches of a load find the first bad code and the first code used twice. -/
theorem fixtureLoadChecksTheCodes : Obligations.FixtureLoadChecksTheCodes := by
  intro tag codes s h
  refine ⟨?_, fun i hi hlt => ?_, fun hw => ⟨fun i j hij he hlt => ?_, fun hne => ?_⟩⟩
  · obtain ⟨hj, hk⟩ := change_then_answer h (withFixture_keeps s none) (by decide) (by decide)
    exact ⟨_, setFixtureClear_accepted h, hj, hk, fixture_answer⟩
  · exact ⟨_, setFixtureLoad_badCode h (firstBadCode_eq_some hi hlt), answer_onlyAnswers h⟩
  · exact ⟨_, setFixtureLoad_duplicate h (firstBadCode_eq_none hw) (firstDuplicate_eq_some hij he hlt),
      answer_onlyAnswers h⟩
  · obtain ⟨hj, hk⟩ := change_then_answer h (withFixture_keeps s (some codes)) (by decide) (by decide)
    exact ⟨_, setFixtureLoad_accepted h (firstBadCode_eq_none hw) (firstDuplicate_eq_none hne), hj, hk, fixture_answer⟩

/-! ### Translation tables -/

theorem duplicateKey_eq_false_iff (pairs : List (Byte × Byte)) :
    duplicateKey pairs = false ↔ (pairs.map (·.1)).Nodup := by
  induction pairs with
  | nil => simp [duplicateKey]
  | cons p rest ih =>
    have hkey : rest.any (fun q => q.1 == p.1) = false ↔ p.1 ∉ rest.map (·.1) := by
      rw [← Bool.not_eq_true, List.any_eq_true, List.mem_map]
      simp only [beq_iff_eq]
    simp only [duplicateKey, Bool.or_eq_false_iff, hkey, ih, List.map_cons, List.nodup_cons]

section
variable {f : TranslationFields}

theorem setTranslation_tooLong (h : s.intakeOpen = true) (hset : s.straps.namesUnfitted f.set = false)
    (hlen : 8 < f.pairs.length) :
    exec (.setTranslation tag (.shaped f)) s = .next (s.answer tag codeSetTranslation .tooLong) := by
  change execSetTranslation tag (.shaped f) s = _
  simp only [execSetTranslation, requestWith_shaped h, hset, hlen, Bool.false_eq_true, if_false, if_true]

theorem setTranslation_duplicateKey (h : s.intakeOpen = true) (hset : s.straps.namesUnfitted f.set = false)
    (hlen : f.pairs.length ≤ 8) (hdup : ¬ (f.pairs.map (·.1)).Nodup) :
    exec (.setTranslation tag (.shaped f)) s = .next (s.answer tag codeSetTranslation .duplicateKey) := by
  have hkey : duplicateKey f.pairs = true := by rwa [← duplicateKey_eq_false_iff, Bool.not_eq_false] at hdup
  change execSetTranslation tag (.shaped f) s = _
  simp only [execSetTranslation, requestWith_shaped h, hset, Nat.not_lt.mpr hlen, hkey, Bool.false_eq_true, if_false,
    if_true]

theorem setTranslation_accepted (h : s.intakeOpen = true) (hset : s.straps.namesUnfitted f.set = false)
    (hlen : f.pairs.length ≤ 8) (hnodup : (f.pairs.map (·.1)).Nodup) :
    exec (.setTranslation tag (.shaped f)) s =
      .next (((slotsOf f.set).foldl (fun s i => s.modSlot i fun x => { x with translation := f.pairs }) s).answer tag
        codeSetTranslation .accepted) := by
  change execSetTranslation tag (.shaped f) s = _
  simp only [execSetTranslation, requestWith_shaped h, hset, Nat.not_lt.mpr hlen,
    (duplicateKey_eq_false_iff f.pairs).mpr hnodup, Bool.false_eq_true, if_false]

end

/-- Settles O25: an accepted list replaces the table of each slot of the set, one slot after the other. -/
theorem translationsReplaceTheTables : Obligations.TranslationsReplaceTheTables := by
  intro tag f s h hset
  refine ⟨fun hlen => ?_, fun hlen hdup => ?_, fun hlen hnodup => ?_⟩
  · exact ⟨_, setTranslation_tooLong h hset hlen, answer_onlyAnswers h⟩
  · exact ⟨_, setTranslation_duplicateKey h hset hlen hdup, answer_onlyAnswers h⟩
  · have hk := foldl_modSlot_keeps (fun _ x => { x with translation := f.pairs }) (slotsOf f.set) s
    obtain ⟨hj, hk⟩ := change_then_answer h hk (by decide) (by decide)
    refine ⟨_, setTranslation_accepted h hset hlen hnodup, hj, hk, fun i => ?_⟩
    rw [slot_answer]
    exact slot_foldl_modSlot (fun _ x => { x with translation := f.pairs }) _ (slotsOf_nodup f.set) s i

/-! ### Operations -/

/-- The code a check stops with, if it does. -/
def errorOf {α : Type} : Except ResultCode α → Option ResultCode
  | .error c => some c
  | .ok _ => none

theorem errorOf_directWork (payload : List Byte) :
    errorOf (directWork payload) = if 240 < payload.length then some .tooLong else none := by
  unfold directWork
  split <;> rfl

theorem errorOf_pushWork_of_lt (s : State) {image : Byte} (h : image.toNat < 8) :
    errorOf (s.pushWork image) =
      if (s.image ⟨image.toNat, h⟩).state = .ready then none
      else if (s.image ⟨image.toNat, h⟩).state = .free then some .badImage
      else some .wrongState := by
  simp only [State.pushWork, imageNumber, dif_pos h]
  cases hst : (s.image ⟨image.toNat, h⟩).state <;> simp [errorOf]

theorem errorOf_pushWork_of_not_lt (s : State) {image : Byte} (h : ¬ image.toNat < 8) :
    errorOf (s.pushWork image) = some .badImage := by
  simp [State.pushWork, imageNumber, h, errorOf]

theorem isFlagByte_iff (b : Byte) : isFlagByte b = true ↔ ¬ 1 < b.toNat := by
  simp only [isFlagByte, Bool.or_eq_true, beq_iff_eq]
  constructor
  · rintro (rfl | rfl) <;> decide
  · bv_omega

theorem policyCode_isSome_iff (code : Byte) (k : Nat) : (policyCode code k).isSome = true ↔ ¬ 2 < code.toNat := by
  by_cases h : 2 < code.toNat
  · simp [policyCode_of_lt h, h]
  · simp [policyCode_of_le (Nat.not_lt.mp h), h]

theorem operationCodes_eq_false_iff (f : OperationFields) :
    operationCodes f = false ↔
      1 < f.selector.toNat ∨ 1 < f.policyPresent.toNat ∨ 1 < f.replyPresent.toNat ∨
        (f.policyPresent.toNat = 1 ∧ 2 < f.policy.toNat) := by
  have hzero : f.policyPresent = 0 ↔ f.policyPresent.toNat = 0 := by bv_omega
  rw [← Bool.not_eq_true]
  simp only [operationCodes, Bool.and_eq_true, Bool.or_eq_true, isFlagByte_iff, policyCode_isSome_iff, beq_iff_eq, hzero]
  omega

theorem findOp_isSome_iff (s : State) (tag : Tag) : (s.findOp tag).isSome = true ↔ tag ∈ s.ops.map (·.tag) := by
  simp [State.findOp]

/-- The first of steps 1 to 4 of R70 that fails. -/
def operationRefusal (s : State) (tag : Tag) (f : OperationFields) : Option ResultCode :=
  if 1 < f.selector.toNat ∨ 1 < f.policyPresent.toNat ∨ 1 < f.replyPresent.toNat ∨
      (f.policyPresent.toNat = 1 ∧ 2 < f.policy.toNat) then some .malformed
  else if tag ∈ s.ops.map (·.tag) then some .duplicateTag
  else if 16 ≤ s.ops.length then some .tableFull
  else if f.selector = 0 ∧ s.group f.group.toNat = none then some .badGroup
  else if f.selector = 1 ∧ s.straps.namesUnfitted f.set = true then some .badSlot
  else none

theorem errorOf_readSource (s : State) {f : OperationFields} (hsel : ¬ 1 < f.selector.toNat) :
    errorOf (s.readSource f) =
      if f.selector = 0 ∧ s.group f.group.toNat = none then some .badGroup
      else if f.selector = 1 ∧ s.straps.namesUnfitted f.set = true then some .badSlot
      else none := by
  have hcases : f.selector = 0 ∨ f.selector = 1 := by bv_omega
  unfold State.readSource
  rcases hcases with h | h
  · cases hg : s.group f.group.toNat <;> simp [h, errorOf]
  · cases hn : s.straps.namesUnfitted f.set <;> simp [h, errorOf]

/-- The checks of R70: steps 1 to 4, and then what the payload or the image answers. -/
theorem errorOf_checkOperation (s : State) (tag : Tag) (f : OperationFields) (work : Except ResultCode Work) :
    errorOf (s.checkOperation tag f work) = (operationRefusal s tag f).or (errorOf work) := by
  unfold State.checkOperation operationRefusal Config.operationEntries
  by_cases hcodes : operationCodes f = false
  · rw [if_pos ((operationCodes_eq_false_iff f).mp hcodes)]
    simp [hcodes, errorOf]
  have hgood := mt (operationCodes_eq_false_iff f).mpr hcodes
  rw [if_neg hgood, if_neg (by simpa using hcodes)]
  by_cases htag : tag ∈ s.ops.map (·.tag)
  · rw [if_pos htag, if_pos ((findOp_isSome_iff s tag).mpr htag)]
    rfl
  rw [if_neg htag, if_neg (mt (findOp_isSome_iff s tag).mp htag)]
  by_cases hfull : 16 ≤ s.ops.length
  · rw [if_pos hfull, if_pos hfull]
    rfl
  rw [if_neg hfull, if_neg hfull, ← errorOf_readSource s fun hsel => hgood (.inl hsel)]
  cases s.readSource f with
  | error c => rfl
  | ok v => cases work <;> rfl

theorem operate_of_refused {f : OperationFields} {work : Except ResultCode Work}
    (hc : (operationRefusal s tag f).or (errorOf work) = some c) : s.operate tag kind f work = s.answer tag kind c := by
  rw [← errorOf_checkOperation] at hc
  unfold State.operate
  cases hcheck : s.checkOperation tag f work with
  | error d =>
    obtain rfl : d = c := by simpa [hcheck, errorOf] using hc
    rfl
  | ok v => simp [hcheck, errorOf] at hc

theorem direct_refused {f : OperationFields} {payload : List Byte} (h : s.intakeOpen = true)
    (hc : (operationRefusal s tag f).or (errorOf (directWork payload)) = some c) :
    exec (.direct tag (.shaped ⟨f, payload⟩)) s = .next (s.answer tag codeDirect c) := by
  change execDirect tag (.shaped ⟨f, payload⟩) s = _
  simp only [execDirect, requestWith_shaped h, operate_of_refused hc]

theorem push_refused {f : OperationFields} {image : Byte} (h : s.intakeOpen = true)
    (hc : (operationRefusal s tag f).or (errorOf (s.pushWork image)) = some c) :
    exec (.push tag (.shaped ⟨f, image⟩)) s = .next (s.answer tag codePush c) := by
  change execPush tag (.shaped ⟨f, image⟩) s = _
  simp only [execPush, requestWith_shaped h, operate_of_refused hc]

/-- Settles O26: DIRECT and PUSH share steps 1 to 4 of R70 and differ in the check that follows. -/
theorem operationsAreRefusedInOrder : Obligations.OperationsAreRefusedInOrder := by
  intro tag f payload image s h before
  have hbefore : before = operationRefusal s tag f := rfl
  refine ⟨fun c hc => ?_, fun c hc => ?_⟩
  · rw [hbefore, ← errorOf_directWork] at hc
    exact ⟨_, direct_refused h hc, answer_onlyAnswers h⟩
  · refine ⟨_, push_refused (c := c) h ?_, answer_onlyAnswers h⟩
    rw [← hbefore, ← hc]
    congr 1
    by_cases himage : image.toNat < 8
    · rw [errorOf_pushWork_of_lt s himage, dif_pos himage]
      cases (s.image ⟨image.toNat, himage⟩).state <;> rfl
    · rw [errorOf_pushWork_of_not_lt s himage, dif_neg himage]

end Sys2Proof.Machine.Tables
end

section
/-! PROOF. The commands that leave the Operation Table and the gather reports in the uplink as they are: a frame law for each
shared operation, and from these one for each command. -/

namespace Sys2Proof.Machine.FanOut

open Tables

variable {s t u : State} {A : List Part}

/-! ### What is kept -/

/-- The Operation Table, and the gather reports that wait in the uplink. -/
def table (s : State) : List Operation × List GatherReport := (s.ops, s.uplink.gathers)

/-- The table of a state written out field by field is that of its fields. -/
@[simp] theorem table_mk (pending now straps port uplink groups fixture ops images store lostBits jobs engineBlocks
    engineAlone arbiterPointer granted interlockA interlockB noticeMask slots) :
    table ⟨pending, now, straps, port, uplink, groups, fixture, ops, images, store, lostBits, jobs, engineBlocks,
      engineAlone, arbiterPointer, granted, interlockA, interlockB, noticeMask, slots⟩ = (ops, uplink.gathers) := rfl

@[simp] theorem table_fields (s : State) : (s.ops, s.uplink.gathers) = table s := rfl

@[simp] theorem table_modSlot (s : State) (i : SlotId) (f : Slot → Slot) : table (s.modSlot i f) = table s := rfl

@[simp] theorem table_modImage (s : State) (k : ImageId) (f : Image → Image) : table (s.modImage k f) = table s := rfl

theorem table_congr (ho : t.ops = s.ops) (hg : t.uplink.gathers = s.uplink.gathers) : table t = table s :=
  Prod.ext ho hg

theorem ops_of_table (h : table t = table s) : t.ops = s.ops := congrArg Prod.fst h

theorem gathers_of_table (h : table t = table s) : t.uplink.gathers = s.uplink.gathers := congrArg Prod.snd h

/-- What leaves the operations and the whole uplink alone leaves the table alone. -/
theorem table_of_keepsBut (h : keepsBut A s t) (ho : Part.operations ∉ A := by decide)
    (hu : Part.uplink ∉ A := by decide) : table t = table s :=
  table_congr (h .operations ho) (congrArg Uplink.gathers (h .uplink hu))

theorem table_foldl {α : Type} {f : State → α → State} (hf : ∀ s a, table (f s a) = table s) (l : List α) (s : State) :
    table (l.foldl f s) = table s := by
  induction l generalizing s with
  | nil => rfl
  | cons a l ih => exact (ih (f s a)).trans (hf s a)

/-! ### Operations that leave the uplink alone -/

section
variable (s : State) (i : SlotId)

@[simp] theorem table_grant : table s.grant = table s := table_of_keepsBut (grant_keeps s)
@[simp] theorem table_noteAlone : table s.noteAlone = table s := rfl
@[simp] theorem table_releaseReference : table (s.releaseReference i) = table s :=
  table_of_keepsBut (releaseReference_keeps s i)
@[simp] theorem table_dropInFlight (c : DropCause) : table (s.dropInFlight i c) = table s :=
  table_of_keepsBut (dropInFlight_keeps s i c)
@[simp] theorem table_dropAll (c : DropCause) : table (s.dropAll i c) = table s := table_of_keepsBut (dropAll_keeps s i c)
@[simp] theorem table_openBridgeOn (c : Option Nat) : table (s.openBridgeOn i c) = table s := rfl
@[simp] theorem table_enterPowering : table (s.enterPowering i) = table s := rfl
@[simp] theorem table_enterBooting : table (s.enterBooting i) = table s := rfl
@[simp] theorem table_keepNestCode : table (s.keepNestCode i) = table s := table_of_keepsBut (keepNestCode_keeps s i)
@[simp] theorem table_startExchange (n : Nat) (p : ExchangePurpose) : table (s.startExchange i n p) = table s := rfl
@[simp] theorem table_enterAborting : table (s.enterAborting i) = table s := table_of_keepsBut (enterAborting_keeps s i)
@[simp] theorem table_slotWork : table (s.slotWork i) = table s := table_of_keepsBut (slotWork_keeps s i)
@[simp] theorem table_countGood : table (s.countGood i) = table s := rfl
@[simp] theorem table_leaveBridge : table (s.leaveBridge i) = table s := rfl
@[simp] theorem table_ask (r : SlotRequest) : table (s.ask i r) = table s := rfl
@[simp] theorem table_modSlots (f : SlotId → Slot → Slot) : table (s.modSlots f) = table s :=
  table_of_keepsBut (modSlots_keeps s f)
@[simp] theorem table_damageImage (k : ImageId) : table (s.damageImage k) = table s :=
  table_of_keepsBut (damageImage_keeps s k)
@[simp] theorem table_countCorrected (k : ImageId) (n : Nat) : table (s.countCorrected k n) = table s := rfl
@[simp] theorem table_chargeWords (k : ImageId) (first n : Nat) : table (s.chargeWords k first n) = table s :=
  table_of_keepsBut (chargeWords_keeps s k first n)
@[simp] theorem table_chargeRead (k : ImageId) (block : Nat) : table (s.chargeRead k block) = table s :=
  table_of_keepsBut (chargeRead_keeps s k block)
@[simp] theorem table_deliver (block : Nat) (failed : Bool) : table (s.deliver i block failed) = table s := rfl
@[simp] theorem table_disturb (first n : Nat) (one two : List Nat) : table (s.disturb first n one two) = table s :=
  rfl
@[simp] theorem table_clearBlocks (first n : Nat) : table (s.clearBlocks first n) = table s := rfl
@[simp] theorem table_endJob : table s.endJob = table s := rfl
@[simp] theorem table_releaseEngine : table s.releaseEngine = table s := by
  unfold State.releaseEngine; split <;> exact rfl
@[simp] theorem table_endEngineAccess : table s.endEngineAccess = table s := table_of_keepsBut (endEngineAccess_keeps s)
@[simp] theorem table_tick : table s.tick = table s := table_of_keepsBut (tick_keeps s)
@[simp] theorem table_setGroup (n : Nat) (g : Option Group) : table (s.setGroup n g) = table s := rfl

/-! ### Receipts, BRIDGE_OUT messages and notices -/

@[simp] theorem table_arbitrate : table s.arbitrate = table s :=
  have ⟨_, hgathers, _⟩ := arbitrate_classes s
  table_congr (arbitrate_keeps s .operations (by decide)) hgathers

@[simp] theorem table_answer (tag : Tag) (kind : Byte) (c : ResultCode) (detail : Half) (reply : Reply) :
    table (s.answer tag kind c detail reply) = table s := by
  simp [State.answer]

@[simp] theorem table_sendBridgeOut (m : BridgeOut) : table (s.sendBridgeOut m) = table s := by
  simp [State.sendBridgeOut]

@[simp] theorem table_queueNotice : table (s.queueNotice i) = table s := rfl

@[simp] theorem table_raise (k : EventKind) : table (s.raise i k) = table s := by
  unfold State.raise; dsimp only; split
  · exact rfl
  · split <;> simp

@[simp] theorem table_raiseAgentUp : table (s.raiseAgentUp i) = table s := by simp [State.raiseAgentUp]

@[simp] theorem table_resolveDeferred : table (s.resolveDeferred i) = table s := by
  unfold State.resolveDeferred; split
  · split
    · dsimp only; split <;> simp
    · exact rfl
  · exact rfl

/-! ### How a slot stops and starts -/

@[simp] theorem table_stopSlot (c : DropCause) (dest : SlotState) : table (s.stopSlot i c dest) = table s := by
  simp [State.stopSlot]

@[simp] theorem table_writeFault (c : FaultCause) (d : Half) : table (s.writeFault i c d) = table s := by
  unfold State.writeFault; split <;> simp

@[simp] theorem table_enterFault (c : FaultCause) (d : Half) : table (s.enterFault i c d) = table s := by
  simp [State.enterFault]

@[simp] theorem table_enterInhibited (c : DropCause) : table (s.enterInhibited i c) = table s := by
  simp [State.enterInhibited]

@[simp] theorem table_enterRecovering (c : RestartCause) : table (s.enterRecovering i c) = table s := by
  simp [State.enterRecovering]

@[simp] theorem table_recoveryDecision (c : FaultCause) (d : Half) : table (s.recoveryDecision i c d) = table s := by
  unfold State.recoveryDecision; split <;> simp

@[simp] theorem table_admitSeated : table (s.admitSeated i) = table s := by
  unfold State.admitSeated; dsimp only; split
  · simp
  · split <;> simp

@[simp] theorem table_attachVacant : table (s.attachVacant i) = table s := by
  unfold State.attachVacant; split <;> simp

@[simp] theorem table_leaveInhibited : table (s.leaveInhibited i) = table s := by
  unfold State.leaveInhibited; split
  · simp
  · split <;> simp

@[simp] theorem table_raisePlaced : table (s.raisePlaced i) = table s := by
  unfold State.raisePlaced; split <;> simp

@[simp] theorem table_evaluatePresence : table (s.evaluatePresence i) = table s := by
  unfold State.evaluatePresence; dsimp only; split
  · split <;> simp
  · simp

@[simp] theorem table_placeSlots : table s.placeSlots = table s :=
  (table_foldl table_evaluatePresence _ _).trans (table_foldl table_raisePlaced _ s)

/-! ### The slot link -/

@[simp] theorem table_becomeReady : table (s.becomeReady i) = table s := by simp [State.becomeReady]

@[simp] theorem table_bootExchange : table (s.bootExchange i) = table s := by
  unfold State.bootExchange; split <;> simp

@[simp] theorem table_loseScore (n : Nat) : table (s.loseScore i n) = table s := by
  unfold State.loseScore; dsimp only; split <;> simp

@[simp] theorem table_restartSelf : table (s.restartSelf i) = table s := by simp [State.restartSelf]

@[simp] theorem table_takeHello (a : AgentIdentity) : table (s.takeHello i a) = table s := by
  unfold State.takeHello; dsimp only; split <;> simp

@[simp] theorem table_sequenceError (q : Byte) : table (s.sequenceError i q) = table s := by simp [State.sequenceError]

@[simp] theorem table_formatError (k : Byte) : table (s.formatError i k) = table s := by
  unfold State.formatError; split <;> simp

@[simp] theorem table_crcError : table (s.crcError i) = table s := by
  unfold State.crcError; dsimp only; split
  · split <;> simp
  · simp

/-- A received frame leaves the table alone when what handles it does. -/
theorem table_receive (f : Frame) (detector : Bool) {early good : State → State} (he : ∀ s, table (early s) = table s)
    (hg : ∀ s, table (good s) = table s) : table (s.receive i f detector early good) = table s := by
  unfold State.receive; dsimp only; split
  · simp
  · simp
  · exact .trans (he _) (by simp)
  · simp
  · simp
  · exact .trans (table_slotWork _ _) (.trans (hg _) (by simp))

@[simp] theorem table_appendText (p : List Byte) : table (s.appendText i p) = table s := by
  unfold State.appendText; dsimp only; split <;> simp

@[simp] theorem table_exchangeSucceeds (e : Exchange) : table (s.exchangeSucceeds i e) = table s := by
  unfold State.exchangeSucceeds; split <;> simp

@[simp] theorem table_takeLinkAck (p : List Byte) : table (s.takeLinkAck i p) = table s := by
  unfold State.takeLinkAck; split
  · split <;> simp
  · simp

@[simp] theorem table_takeResult (service : Byte) (p : List Byte) : table (s.takeResult i service p) = table s := by
  unfold State.takeResult; split <;> simp [State.endTransaction, State.endAbort]

@[simp] theorem table_takeCredit (p : List Byte) : table (s.takeCredit i p) = table s := by
  unfold State.takeCredit; split <;> simp

@[simp] theorem table_takeFrame (f : Frame) : table (s.takeFrame i f) = table s := by
  unfold State.takeFrame; split
  · exact table_receive s i f false (by simp) (by simp)
  split
  · exact table_receive s i f false (by simp) (by simp)
  split
  · exact table_receive s i f false (by simp) (by simp)
  split <;> exact table_receive s i f false (by simp) (by simp)

@[simp] theorem table_takeByte (b : Byte) : table (s.takeByte i b) = table s := by
  unfold State.takeByte; split
  · split <;> simp
  dsimp only; split
  · simp
  split
  · simp
  split
  · simp
  split <;> simp

@[simp] theorem table_frameSent (kind : Byte) (effect : Slot → Slot) : table (s.frameSent i kind effect) = table s := by
  unfold State.frameSent; split <;> simp

/-! ### The bridge -/

@[simp] theorem table_queueBridgeOut : table (s.queueBridgeOut i) = table s := by simp [State.queueBridgeOut]

@[simp] theorem table_buildBridgeOut (b : Bool) : table (s.buildBridgeOut i b) = table s := by
  unfold State.buildBridgeOut; dsimp only; split
  · split
    · simp
    · split <;> simp
  · simp

/-! ### Requests -/

theorem table_request {run : State → State} (h : ∀ s, table (run s) = table s) : table (s.request run) = table s := by
  unfold State.request; split
  · exact h s
  · exact rfl

theorem table_requestWith {α : Type} (tag : Tag) (kind : Byte) (body : Body α) {run : α → State → State}
    (h : ∀ f s, table (run f s) = table s) : table (s.requestWith tag kind body run) = table s := by
  refine table_request s fun s => ?_
  cases body with
  | shaped f => exact h f s
  | misshapen b => simp

theorem table_onSlot (tag : Tag) (kind number : Byte) {run : SlotId → State} (h : ∀ i, table (run i) = table s) :
    table (s.onSlot tag kind number run) = table s := by
  unfold State.onSlot; split
  · simp
  · exact h _

theorem table_actOn (allows : Slot → Bool) {act : State → SlotId → State} (h : ∀ s i, table (act s i) = table s)
    (l : List SlotId) (s : State) : table (s.actOn allows act l).1 = table s := by
  induction l generalizing s with
  | nil => exact rfl
  | cons i rest ih =>
    unfold State.actOn; split
    · exact (ih _).trans (h s i)
    · exact ih s

theorem table_control (tag : Tag) (kind : Byte) (set : SlotSet) (mask : Half) (allows : Slot → Bool)
    {act : State → SlotId → State} (h : ∀ s i, table (act s i) = table s) :
    table (s.control tag kind set mask allows act) = table s := by
  unfold State.control; split
  · simp
  · exact .trans (table_answer _ _ _ _ _ _) (table_actOn allows h _ s)

theorem table_slotControl (tag : Tag) (body : Body SlotSet) (allows : Slot → Bool) {act : State → SlotId → State}
    (h : ∀ s i, table (act s i) = table s) : table (s.slotControl tag body allows act) = table s :=
  table_requestWith s tag _ body fun set s => table_control s tag _ set 0 allows h

@[simp] theorem table_clearFault : table (s.clearFault i) = table s := by
  unfold State.clearFault; dsimp only; split
  · split <;> simp
  · simp

/-! ### Inputs, deadlines, the image store -/

@[simp] theorem table_takeAttach : table (s.takeAttach i) = table s := by
  unfold State.takeAttach; dsimp only; split <;> simp

@[simp] theorem table_takeDetach : table (s.takeDetach i) = table s := by
  unfold State.takeDetach; dsimp only; split <;> simp

@[simp] theorem table_openDrawer : table (s.openDrawer i) = table s := by
  unfold State.openDrawer; split <;> simp

@[simp] theorem table_closeDrawer : table (s.closeDrawer i) = table s := by
  unfold State.closeDrawer; split <;> simp

@[simp] theorem table_allowanceEnded (kind : AllowanceKind) : table (s.allowanceEnded i kind) = table s := by
  unfold State.allowanceEnded; split
  · split <;> simp
  · simp

@[simp] theorem table_takeFaultRequest (r : FaultRequest) : table (s.takeFaultRequest i r) = table s := by
  unfold State.takeFaultRequest; dsimp only; split
  · simp
  · split <;> simp

@[simp] theorem table_noticeIfPending (enabled : BitVec 8) : table (s.noticeIfPending enabled i) = table s := by
  unfold State.noticeIfPending; split <;> simp

@[simp] theorem table_abortWith (body : ReportBody) : table (s.abortWith i body) = table s := by simp [State.abortWith]

@[simp] theorem table_takeWithdraw (tag : Tag) : table (s.takeWithdraw i tag) = table s := by
  unfold State.takeWithdraw; dsimp only; split
  · simp
  split
  · split
    · split <;> simp
    · simp
  · simp

@[simp] theorem table_writeAccess (tag : Tag) (k : ImageId) (offset : Nat) (data : List Byte) (discard : Bool) :
    table (s.writeAccess tag k offset data discard) = table s := by
  unfold State.writeAccess; dsimp only; split
  · split <;> split <;> simp
  · split <;> simp

end

end Sys2Proof.Machine.FanOut
end

section
/-! PROOF. Which commands can change the Operation Table or the gather reports in the uplink: every other one leaves both as
they are. -/

namespace Sys2Proof.Machine.FanOut

variable (s : State) (i : SlotId) (tag : Tag)

/-- Wherever the outcome goes on, the table is the same. -/
def leavesTable (s : State) (o : Host.Outcome State Fault Refusal) : Prop := ∀ t, o = .next t → table t = table s

@[simp] theorem leavesTable_next {s t : State} : leavesTable s (.next t) ↔ table t = table s :=
  ⟨fun h => h t rfl, fun h _ ht => by cases ht; exact h⟩

@[simp] theorem leavesTable_fault {s : State} (r : Fault) : leavesTable s (.fault r) := fun _ h => by cases h

/-- A request leaves the table alone when its own run does. -/
theorem request_leavesTable {α : Type} {kind : Byte} {body : Body α} {run : α → State → State}
    (h : ∀ f s, table (run f s) = table s) : leavesTable s (.next (s.requestWith tag kind body run)) :=
  leavesTable_next.mpr (table_requestWith s tag kind body h)

/-- An action of SLOT_CONTROL leaves the table alone when what it does to each slot does. -/
theorem slotControl_leavesTable {body : Body SlotSet} {allows : Slot → Bool} {act : State → SlotId → State}
    (h : ∀ s i, table (act s i) = table s) : leavesTable s (.next (s.slotControl tag body allows act)) :=
  leavesTable_next.mpr (table_slotControl s tag body allows h)

/-! ### The port, the slots and the queries -/

theorem hostPortConfigured_leavesTable : leavesTable s (execHostPortConfigured s) := by simp [execHostPortConfigured]

theorem malformedTransfer_leavesTable (bytes : List Byte) : leavesTable s (execMalformedTransfer bytes s) :=
  leavesTable_next.mpr (table_request s fun s => by split <;> simp)

theorem identify_leavesTable (body : Body Unit) : leavesTable s (execIdentify tag body s) :=
  request_leavesTable s tag fun _ s => by simp

theorem restart_leavesTable (body : Body Unit) : leavesTable s (execRestart tag body s) :=
  request_leavesTable s tag fun _ s => by simp

theorem setProfile_leavesTable (body : Body ProfileFields) : leavesTable s (execSetProfile tag body s) :=
  request_leavesTable s tag fun f s => by
    split
    · simp
    split
    · simp
    · exact (table_answer _ _ _ _ _ _).trans (table_foldl (fun s i => table_modSlot s i _) _ s)

theorem powerOn_leavesTable (body : Body SlotSet) : leavesTable s (execPowerOn tag body s) :=
  slotControl_leavesTable s tag fun s i => by simp

theorem powerOff_leavesTable (body : Body SlotSet) : leavesTable s (execPowerOff tag body s) :=
  slotControl_leavesTable s tag fun s i => by simp

theorem cycle_leavesTable (body : Body SlotSet) : leavesTable s (execCycle tag body s) :=
  slotControl_leavesTable s tag fun s i => by simp

theorem resetSlot_leavesTable (body : Body SlotSet) : leavesTable s (execResetSlot tag body s) :=
  slotControl_leavesTable s tag fun s i => by simp

theorem clearFault_leavesTable (body : Body SlotSet) : leavesTable s (execClearFault tag body s) :=
  slotControl_leavesTable s tag fun s i => by simp

theorem disable_leavesTable (body : Body SlotSet) : leavesTable s (execDisable tag body s) :=
  slotControl_leavesTable s tag fun s i => by dsimp only; split <;> simp

theorem enable_leavesTable (body : Body SlotSet) : leavesTable s (execEnable tag body s) :=
  slotControl_leavesTable s tag fun s i => by dsimp only; split <;> simp

theorem querySlots_leavesTable (body : Body SlotSet) : leavesTable s (execQuerySlots tag body s) :=
  request_leavesTable s tag fun _ s => by split <;> simp

theorem measure_leavesTable (body : Body SlotSet) : leavesTable s (execMeasure tag body s) :=
  request_leavesTable s tag fun _ s => by split <;> simp

theorem pressKey_leavesTable (body : Body PressKeyFields) : leavesTable s (execPressKey tag body s) :=
  request_leavesTable s tag fun _ s => table_control s _ _ _ _ _ fun s i => by simp

/-! ### Tables and events -/

theorem defineGroup_leavesTable (body : Body GroupFields) : leavesTable s (execDefineGroup tag body s) :=
  request_leavesTable s tag fun _ s => by
    split
    · simp
    · split <;> simp

theorem undefineGroup_leavesTable (body : Body GroupFields) : leavesTable s (execUndefineGroup tag body s) :=
  request_leavesTable s tag fun _ s => by split <;> simp

theorem setFixtureLoad_leavesTable (body : Body (Vector Byte 24)) : leavesTable s (execSetFixtureLoad tag body s) :=
  request_leavesTable s tag fun _ s => by
    split
    · simp
    · split <;> simp

theorem setFixtureClear_leavesTable (body : Body (Vector Byte 24)) : leavesTable s (execSetFixtureClear tag body s) :=
  request_leavesTable s tag fun _ s => by simp

theorem setTranslation_leavesTable (body : Body TranslationFields) : leavesTable s (execSetTranslation tag body s) :=
  request_leavesTable s tag fun f s => by
    split
    · simp
    split
    · simp
    split
    · simp
    · exact (table_answer _ _ _ _ _ _).trans (table_foldl (fun s i => table_modSlot s i _) _ s)

theorem readEvents_leavesTable (body : Body SlotSet) : leavesTable s (execReadEvents tag body s) :=
  request_leavesTable s tag fun set s => by
    split
    · simp
    · exact (table_answer _ _ _ _ _ _).trans (table_foldl (fun s i => table_modSlot s i _) _ s)

theorem setNoticeMask_leavesTable (body : Body Half) : leavesTable s (execSetNoticeMask tag body s) :=
  request_leavesTable s tag fun m s => by
    split
    · simp
    · exact (table_foldl (fun s i => table_noticeIfPending s i _) _ _).trans (by simp)

theorem queryOperations_leavesTable (body : Body Unit) : leavesTable s (execQueryOperations tag body s) :=
  request_leavesTable s tag fun _ s => by simp

/-! ### The image store -/

theorem imageDefine_leavesTable (body : Body ImageDefineFields) : leavesTable s (execImageDefine tag body s) :=
  request_leavesTable s tag fun f s => by
    split
    · simp
    split
    · simp
    · split <;> simp

theorem imageWrite_leavesTable (body : Body ImageWriteFields) : leavesTable s (execImageWrite tag body s) :=
  request_leavesTable s tag fun f s => by split <;> simp

theorem imageCommit_leavesTable (body : Body ImageCommitFields) : leavesTable s (execImageCommit tag body s) :=
  request_leavesTable s tag fun f s => by
    split
    · simp
    · split <;> simp

theorem imageRelease_leavesTable (body : Body Byte) : leavesTable s (execImageRelease tag body s) :=
  request_leavesTable s tag fun f s => by
    split
    · simp
    split
    · simp
    · split <;> simp

theorem imageQuery_leavesTable (body : Body Unit) : leavesTable s (execImageQuery tag body s) :=
  request_leavesTable s tag fun _ s => by simp

theorem imageWriteAccessDone_leavesTable (one two : List Nat) : leavesTable s (execImageWriteAccessDone one two s) := by
  have h : table (if s.granted = some .writePath then s else s.endEngineAccess) = table s := by split <;> simp
  unfold execImageWriteAccessDone; dsimp only
  generalize (if s.granted = some .writePath then s else s.endEngineAccess) = t at h ⊢
  split
  · split
    · simp
    · simpa using h
  · simp

theorem streamChunkRead_leavesTable (one two : List Nat) : leavesTable s (execStreamChunkRead i one two s) := by
  have h : table (if s.granted = some .engine then s.endEngineAccess else s) = table s := by split <;> simp
  unfold execStreamChunkRead; dsimp only; split
  · split
    · split
      · simp
      · simpa using h
    · simp
  · simp

theorem clearingJobEnd_leavesTable : leavesTable s (execClearingJobEnd s) := by
  simp only [execClearingJobEnd, leavesTable_next]
  split
  · split <;> simp
  · rfl

theorem verificationJobEnd_leavesTable (one two : List Nat) : leavesTable s (execVerificationJobEnd one two s) := by
  unfold execVerificationJobEnd; dsimp only; split
  · split
    · split
      · simp
      · split <;> simp
    · simp
  · simp

/-! ### The console and the bridge -/

theorem readConsole_leavesTable (body : Body Byte) : leavesTable s (execReadConsole tag body s) :=
  request_leavesTable s tag fun _ s => table_onSlot s _ _ _ fun i => by split <;> simp

theorem openBridge_leavesTable (body : Body OpenBridgeFields) : leavesTable s (execOpenBridge tag body s) :=
  request_leavesTable s tag fun f s => by
    split
    · simp
    · refine table_onSlot s _ _ _ fun i => ?_
      split
      · simp
      · split <;> simp

theorem bridgeData_leavesTable (body : Body BridgeDataFields) : leavesTable s (execBridgeData tag body s) :=
  request_leavesTable s tag fun f s => by
    split
    · simp
    split
    · simp
    · refine table_onSlot s _ _ _ fun i => ?_
      dsimp only
      split
      · simp
      · split <;> simp

theorem closeBridge_leavesTable (body : Body Byte) : leavesTable s (execCloseBridge tag body s) :=
  request_leavesTable s tag fun _ s => table_onSlot s _ _ _ fun i => by split <;> simp

theorem bridgeOutSent_leavesTable : leavesTable s (execBridgeOutSent s) := by
  simp only [execBridgeOutSent, leavesTable_next]
  split
  · simp [Uplink.freed]
  · rfl

theorem noticeBegun_leavesTable : leavesTable s (execNoticeBegun s) := by
  simp only [execNoticeBegun, leavesTable_next]
  split
  · split <;> simp
  · rfl

theorem bridgeIdleTimerExpiry_leavesTable : leavesTable s (execBridgeIdleTimerExpiry i s) := by
  simp only [execBridgeIdleTimerExpiry, leavesTable_next]; split <;> simp

theorem breakEnd_leavesTable : leavesTable s (execBreakEnd i s) := by
  simp only [execBreakEnd, leavesTable_next]; split <;> simp

theorem rawByteReceived_leavesTable (byte : Byte) : leavesTable s (execRawByteReceived i byte s) := by
  simp only [execRawByteReceived, leavesTable_next]; split
  · simp
  · split <;> simp

theorem bridgeOutGatheringExpiry_leavesTable : leavesTable s (execBridgeOutGatheringExpiry i s) := by
  simp only [execBridgeOutGatheringExpiry, leavesTable_next]; split
  · split <;> simp
  · rfl

theorem bridgeByteSent_leavesTable : leavesTable s (execBridgeByteSent i s) := by
  simp only [execBridgeByteSent, leavesTable_next]; split <;> simp

/-! ### Inputs, timers and current supervision -/

theorem presenceContactChange_leavesTable (seated : Bool) (lines : Byte) :
    leavesTable s (execPresenceContactChange i seated lines s) := by
  simp [execPresenceContactChange]

theorem presenceDebounceExpiry_leavesTable : leavesTable s (execPresenceDebounceExpiry i s) := by
  simp only [execPresenceDebounceExpiry, leavesTable_next]; split
  · split
    · simp
    · split <;> simp
  · rfl

theorem table_setInterlock (k : Bank) (x : Interlock) : table (s.setInterlock k x) = table s :=
  table_of_keepsBut (setInterlock_keeps s k x)

theorem interlockInputChange_leavesTable (bank : Bank) (isOpen : Bool) :
    leavesTable s (execInterlockInputChange bank isOpen s) :=
  leavesTable_next.mpr (table_setInterlock s bank _)

theorem interlockSettleExpiry_leavesTable (bank : Bank) : leavesTable s (execInterlockSettleExpiry bank s) := by
  simp only [execInterlockSettleExpiry, leavesTable_next]; split
  · exact (table_foldl (fun s i => by split <;> simp) _ _).trans (table_setInterlock s bank _)
  · rfl

theorem settleTimerExpiry_leavesTable : leavesTable s (execSettleTimerExpiry i s) := by
  simp only [execSettleTimerExpiry, leavesTable_next]; split <;> simp

theorem recoveryOffTimerExpiry_leavesTable : leavesTable s (execRecoveryOffTimerExpiry i s) := by
  simp only [execRecoveryOffTimerExpiry, leavesTable_next]; split <;> simp

theorem keyPressExpiry_leavesTable : leavesTable s (execKeyPressExpiry i s) := by
  simp only [execKeyPressExpiry, leavesTable_next]; split <;> simp

theorem blankingWindowExpiry_leavesTable : leavesTable s (execBlankingWindowExpiry i s) := by
  simp only [execBlankingWindowExpiry, leavesTable_next]; split <;> simp

theorem currentSample_leavesTable (milliamps : Nat) : leavesTable s (execCurrentSample i milliamps s) := by
  simp only [execCurrentSample, leavesTable_next]; split <;> simp

theorem faultRequest_leavesTable : leavesTable s (execFaultRequest i s) := by
  simp only [execFaultRequest, leavesTable_next]; split <;> simp

/-! ### The slot link -/

theorem receive_leavesTable (f : Frame) (detector : Bool) {early good : State → State}
    (he : ∀ s, table (early s) = table s) (hg : ∀ s, table (good s) = table s) :
    leavesTable s (.next (s.receive i f detector early good)) :=
  leavesTable_next.mpr (table_receive s i f detector he hg)

theorem formatError_leavesTable (f : Frame) : leavesTable s (execFormatError i f s) := by
  simp only [execFormatError, leavesTable_next]; split
  · rfl
  · exact table_receive s i f false (fun _ => rfl) fun _ => rfl

theorem receiverStallExpiry_leavesTable : leavesTable s (execReceiverStallExpiry i s) := by
  simp only [execReceiverStallExpiry, leavesTable_next]; split <;> simp

theorem sequenceErrorFrame_leavesTable (seq : Byte) : leavesTable s (execSequenceErrorFrame i seq s) := by
  simp only [execSequenceErrorFrame, leavesTable_next]; split
  · split <;> simp
  · rfl

theorem rateExchangeWaitExpiry_leavesTable : leavesTable s (execRateExchangeWaitExpiry i s) := by
  simp only [execRateExchangeWaitExpiry, leavesTable_next]; split
  · split <;> simp
  · rfl

/-! ### Deadlines and withdraws -/

theorem damageStop_leavesTable : leavesTable s (execDamageStop i s) := by
  simp only [execDamageStop, leavesTable_next]; split
  · rfl
  · split <;> simp

theorem memberWindowExpiry_leavesTable : leavesTable s (execMemberWindowExpiry i s) := by
  simp only [execMemberWindowExpiry, leavesTable_next]; split <;> simp

theorem queueLimitExpiry_leavesTable : leavesTable s (execQueueLimitExpiry i s) := by
  simp only [execQueueLimitExpiry, leavesTable_next]; split <;> simp

theorem abortWaitExpiry_leavesTable : leavesTable s (execAbortWaitExpiry i s) := by
  simp only [execAbortWaitExpiry, leavesTable_next]; split <;> simp

theorem withdraw_leavesTable : leavesTable s (execWithdraw i s) := by
  simp only [execWithdraw, leavesTable_next]; split
  · next h => simp [State.takeRequest, h]
  · rfl

/-! ### Every command -/

/-- The commands that create, change or end an operation. -/
def touchesTable : Instr → Bool
  | .powerOnReset .. | .hostPortDetach | .receiptSent | .gatherReportSent | .direct .. | .push .. | .cancel ..
  | .append .. | .startReport .. | .resultReport .. | .windowExpiryReport .. | .queueLimitReport .. | .dropReport ..
  | .streamDamageReport .. => true
  | _ => false

/-- A command that is none of these leaves the Operation Table and the gather reports as they are. -/
theorem exec_leavesTable {c : Instr} (h : touchesTable c = false) (s : State) : leavesTable s (exec c s) := by
  cases c with
  | powerOnReset | hostPortDetach | receiptSent | gatherReportSent | direct | push | cancel | append | startReport
  | resultReport | windowExpiryReport | queueLimitReport | dropReport | streamDamageReport => cases h
  | hostPortConfigured => exact hostPortConfigured_leavesTable s
  | malformedTransfer bytes => exact malformedTransfer_leavesTable s bytes
  | identify tag body => exact identify_leavesTable s tag body
  | restart tag body => exact restart_leavesTable s tag body
  | setProfile tag body => exact setProfile_leavesTable s tag body
  | powerOn tag body => exact powerOn_leavesTable s tag body
  | powerOff tag body => exact powerOff_leavesTable s tag body
  | cycle tag body => exact cycle_leavesTable s tag body
  | resetSlot tag body => exact resetSlot_leavesTable s tag body
  | clearFault tag body => exact clearFault_leavesTable s tag body
  | disable tag body => exact disable_leavesTable s tag body
  | enable tag body => exact enable_leavesTable s tag body
  | querySlots tag body => exact querySlots_leavesTable s tag body
  | defineGroup tag body => exact defineGroup_leavesTable s tag body
  | undefineGroup tag body => exact undefineGroup_leavesTable s tag body
  | setFixtureLoad tag body => exact setFixtureLoad_leavesTable s tag body
  | setFixtureClear tag body => exact setFixtureClear_leavesTable s tag body
  | setTranslation tag body => exact setTranslation_leavesTable s tag body
  | queryOperations tag body => exact queryOperations_leavesTable s tag body
  | imageDefine tag body => exact imageDefine_leavesTable s tag body
  | imageWrite tag body => exact imageWrite_leavesTable s tag body
  | imageWriteAccessDone one two => exact imageWriteAccessDone_leavesTable s one two
  | imageCommit tag body => exact imageCommit_leavesTable s tag body
  | imageRelease tag body => exact imageRelease_leavesTable s tag body
  | imageQuery tag body => exact imageQuery_leavesTable s tag body
  | measure tag body => exact measure_leavesTable s tag body
  | pressKey tag body => exact pressKey_leavesTable s tag body
  | readConsole tag body => exact readConsole_leavesTable s tag body
  | openBridge tag body => exact openBridge_leavesTable s tag body
  | bridgeData tag body => exact bridgeData_leavesTable s tag body
  | closeBridge tag body => exact closeBridge_leavesTable s tag body
  | readEvents tag body => exact readEvents_leavesTable s tag body
  | setNoticeMask tag body => exact setNoticeMask_leavesTable s tag body
  | bridgeOutSent => exact bridgeOutSent_leavesTable s
  | noticeBegun => exact noticeBegun_leavesTable s
  | presenceContactChange i seated lines => exact presenceContactChange_leavesTable s i seated lines
  | presenceDebounceExpiry i => exact presenceDebounceExpiry_leavesTable s i
  | interlockInputChange bank isOpen => exact interlockInputChange_leavesTable s bank isOpen
  | interlockSettleExpiry bank => exact interlockSettleExpiry_leavesTable s bank
  | settleTimerExpiry i => exact settleTimerExpiry_leavesTable s i
  | bootAllowanceExpiry i => exact leavesTable_next.mpr (table_allowanceEnded s i .boot)
  | resyncAllowanceExpiry i => exact leavesTable_next.mpr (table_allowanceEnded s i .resync)
  | recoveryOffTimerExpiry i => exact recoveryOffTimerExpiry_leavesTable s i
  | hello i detector => exact receive_leavesTable s i _ detector (fun _ => rfl) fun _ => rfl
  | linkAck i => exact receive_leavesTable s i _ false (fun _ => rfl) fun s => table_takeLinkAck s i _
  | rateExchangeWaitExpiry i => exact rateExchangeWaitExpiry_leavesTable s i
  | result i => exact receive_leavesTable s i _ false (fun _ => rfl) fun s => table_takeResult s i _ _
  | text i =>
    exact receive_leavesTable s i _ false (fun s => table_appendText s i _) fun s => table_appendText s i _
  | streamCredit i => exact receive_leavesTable s i _ false (fun _ => rfl) fun s => table_takeCredit s i _
  | formatError i f => exact formatError_leavesTable s i f
  | crcError i => exact leavesTable_next.mpr (table_crcError s i)
  | receiverStallExpiry i => exact receiverStallExpiry_leavesTable s i
  | linkFrameSent i => exact leavesTable_next.mpr (table_frameSent s i _ _)
  | abortFrameSent i => exact leavesTable_next.mpr (table_frameSent s i _ _)
  | streamOpenSent i => exact leavesTable_next.mpr (table_frameSent s i _ _)
  | streamDataSent i => exact leavesTable_next.mpr (table_frameSent s i _ _)
  | streamChunkRead i one two => exact streamChunkRead_leavesTable s i one two
  | damageStop i => exact damageStop_leavesTable s i
  | memberWindowExpiry i => exact memberWindowExpiry_leavesTable s i
  | queueLimitExpiry i => exact queueLimitExpiry_leavesTable s i
  | abortWaitExpiry i => exact abortWaitExpiry_leavesTable s i
  | keyPressExpiry i => exact keyPressExpiry_leavesTable s i
  | blankingWindowExpiry i => exact blankingWindowExpiry_leavesTable s i
  | currentSample i milliamps => exact currentSample_leavesTable s i milliamps
  | faultRequest i => exact faultRequest_leavesTable s i
  | bridgeIdleTimerExpiry i => exact bridgeIdleTimerExpiry_leavesTable s i
  | breakEnd i => exact breakEnd_leavesTable s i
  | rawByteReceived i byte => exact rawByteReceived_leavesTable s i byte
  | bridgeOutGatheringExpiry i => exact bridgeOutGatheringExpiry_leavesTable s i
  | bridgeByteSent i => exact bridgeByteSent_leavesTable s i
  | clearingJobEnd => exact clearingJobEnd_leavesTable s
  | verificationJobEnd one two => exact verificationJobEnd_leavesTable s one two
  | withdraw i => exact withdraw_leavesTable s i
  | sequenceErrorFrame i seq => exact sequenceErrorFrame_leavesTable s i seq

end Sys2Proof.Machine.FanOut
end

section
/-! PROOF. The Operation Table's own operations: what finding, changing and completing an entry make of the table, the uplink
and the slots (4.5 to 4.7). -/

namespace Sys2Proof.Machine.FanOut

open Tables

variable {s t : State} {o p : Operation} {tag : Tag} {i j : SlotId} {c : CancelCause} {v : Verdict}

/-! ### Finding an entry -/

/-- No two entries hold the same tag (R68). -/
abbrev tagsDiffer (s : State) : Prop := (s.ops.map (·.tag)).Nodup

theorem mem_of_findOp (h : s.findOp tag = some o) : o ∈ s.ops ∧ o.tag = tag :=
  ⟨List.mem_of_find?_eq_some h, by simpa using List.find?_some h⟩

theorem findOp_eq_none_iff : s.findOp tag = none ↔ tag ∉ s.ops.map (·.tag) := by
  rw [← findOp_isSome_iff, Bool.not_eq_true, Option.isSome_eq_false_iff, Option.isNone_iff_eq_none]

/-- The entry is in the table, and no other holds its tag. -/
def uniqueEntry (s : State) (o : Operation) : Prop := o ∈ s.ops ∧ ∀ q ∈ s.ops, q.tag = o.tag → q = o

theorem uniqueEntry_of_mem (hn : tagsDiffer s) (ho : o ∈ s.ops) : uniqueEntry s o :=
  ⟨ho, fun _ hq h => List.inj_on_of_nodup_map hn hq ho h⟩

theorem uniqueEntry_congr (h : t.ops = s.ops) : uniqueEntry t o ↔ uniqueEntry s o := by rw [uniqueEntry, h]; rfl

theorem uniqueEntry.mem_tags (h : uniqueEntry s o) : o.tag ∈ s.ops.map (·.tag) := List.mem_map.mpr ⟨o, h.1, rfl⟩

theorem uniqueEntry.findOp (h : uniqueEntry s o) : s.findOp o.tag = some o := by
  cases hf : s.findOp o.tag with
  | none => exact absurd h.mem_tags (findOp_eq_none_iff.mp hf)
  | some p =>
    obtain ⟨hp, ht⟩ := mem_of_findOp hf
    rw [h.2 p hp ht]

/-! ### Changing an entry -/

/-- The entry that holds the tag of `o` is replaced by `o`. -/
def replaced (l : List Operation) (o : Operation) : List Operation := l.map fun q => if q.tag = o.tag then o else q

@[simp] theorem replaced_tags (l : List Operation) (o : Operation) : (replaced l o).map (·.tag) = l.map (·.tag) := by
  simp only [replaced, List.map_map]
  refine List.map_congr_left fun q _ => ?_
  by_cases h : q.tag = o.tag <;> simp [h]

@[simp] theorem replaced_length (l : List Operation) (o : Operation) : (replaced l o).length = l.length := by
  simp [replaced]

theorem replaced_replaced (l : List Operation) (h : p.tag = o.tag) : replaced (replaced l o) p = replaced l p := by
  simp only [replaced, List.map_map]
  refine List.map_congr_left fun q _ => ?_
  by_cases hq : q.tag = o.tag <;> simp [hq, h]

/-- An entry appended to a table without its tag is replaced where it stands. -/
theorem replaced_append (l : List Operation) (hl : o.tag ∉ l.map (·.tag)) (h : p.tag = o.tag) :
    replaced (l ++ [o]) p = l ++ [p] := by
  have hsame : replaced l p = l := by
    refine (List.map_congr_left fun q hq => if_neg fun hqp => hl ?_).trans (List.map_id l)
    exact List.mem_map.mpr ⟨q, hq, hqp.trans h⟩
  calc replaced (l ++ [o]) p = replaced l p ++ replaced [o] p := List.map_append
    _ = l ++ [p] := by rw [hsame]; simp [replaced, h]

/-- An entry of the table after a replacement is the new one, or one that was there and holds another tag. -/
theorem mem_replaced {l : List Operation} {q : Operation} (h : q ∈ replaced l o) :
    q = o ∨ (q ∈ l ∧ q.tag ≠ o.tag) := by
  obtain ⟨a, ha, rfl⟩ := List.mem_map.mp h
  split
  · exact .inl rfl
  · next hne => exact .inr ⟨ha, hne⟩

theorem mem_replaced_self {l : List Operation} (h : o.tag ∈ l.map (·.tag)) : o ∈ replaced l o := by
  obtain ⟨a, ha, hat⟩ := List.mem_map.mp h
  exact List.mem_map.mpr ⟨a, ha, if_pos hat⟩

theorem mem_replaced_of_ne {l : List Operation} {q : Operation} (hq : q ∈ l) (h : q.tag ≠ o.tag) : q ∈ replaced l o :=
  List.mem_map.mpr ⟨q, hq, if_neg h⟩

/-- Changing the entry of a tag replaces that entry. -/
theorem modOp_ops {f : Operation → Operation} (h : uniqueEntry s o) (hf : (f o).tag = o.tag) :
    (s.modOp o.tag f).ops = replaced s.ops (f o) := by
  refine List.map_congr_left fun q hq => ?_
  rw [hf]
  by_cases hqo : q.tag = o.tag
  · rw [h.2 q hq hqo]
  · simp [hqo]

/-- A change that leaves the entry as it is leaves the state as it is. -/
theorem modOp_eq_self {f : Operation → Operation} (h : ∀ q ∈ s.ops, q.tag = tag → f q = q) : s.modOp tag f = s := by
  have hops : (s.ops.map fun q => if q.tag = tag then f q else q) = s.ops := by
    refine (List.map_congr_left fun q hq => ?_).trans (List.map_id _)
    by_cases hq' : q.tag = tag
    · simp [hq', h q hq hq']
    · simp [hq']
  rw [State.modOp, hops]

/-- An entry that has replaced the one with its tag is the only one with that tag. -/
theorem uniqueEntry_of_replaced (hp : p.tag ∈ s.ops.map (·.tag)) (h : t.ops = replaced s.ops p) : uniqueEntry t p := by
  rw [uniqueEntry, h]
  exact ⟨mem_replaced_self hp, fun q hq hqp => (mem_replaced hq).resolve_right fun hne => hne.2 hqp⟩

/-! ### Ending members -/

theorem finish_eq_ended (o : Operation) (i : SlotId) (st : MemberStatus) : o.finish i st = o.ended i st := by
  unfold Operation.finish Operation.ended
  congr 1 <;> split <;> rfl

theorem openSlots_length (o : Operation) : o.openSlots.length = (o.members.filter fun m => !m.status.isFinal).length :=
  List.length_map _

/-- An entry closes when its open members are cancelled and its verdict and time are recorded. -/
theorem closed_eq (o : Operation) (c : CancelCause) (v : Verdict) (now : Count) :
    ({ o.cancelRest c with phase := .reporting v now } : Operation) = o.closed c v now := by
  simp only [Operation.cancelRest, Operation.closed, openSlots_length]

/-! ### Asking the slots -/

/-- The same request, sent to each slot of a list. -/
theorem asks_keep (l : List SlotId) (r : SlotRequest) (s : State) :
    keepsBut [.slots] s (l.foldl (fun s i => s.ask i r) s) := keepsBut.foldl _ (fun s i => ask_keeps s i r) l s

theorem slot_asks (l : List SlotId) (r : SlotRequest) (s : State) (j : SlotId) :
    (l.foldl (fun s i => s.ask i r) s).slot j =
      { s.slot j with requests := (s.slot j).requests ++ (l.filter (· = j)).map fun _ => r } := by
  induction l generalizing s with
  | nil => simp
  | cons a l ih =>
    rw [List.foldl_cons, ih, slot_ask]
    by_cases h : a = j
    · subst h; simp
    · simp [h, Ne.symm h]

/-! ### Completion -/

/-- The uplink after a gather report has joined: the other classes and a notice on the pipe are as they were. -/
theorem sendGather_classes (s : State) (g : GatherReport) :
    (s.sendGather g).uplink.receipts = s.uplink.receipts ∧ (s.sendGather g).uplink.gathers = s.uplink.gathers ++ [g] ∧
      (s.sendGather g).uplink.bridgeOuts = s.uplink.bridgeOuts ∧ (s.sendGather g).uplink.notices = s.uplink.notices ∧
      (s.sendGather g).uplink.noticeOnPipe = s.uplink.noticeOnPipe := arbitrate_classes _

/-- What the pipe sends, or may send when the notice on it has ended, is settled: a receipt waits, and either a message is on
the pipe or the receipts are among the classes that may be chosen (R188; log 11). -/
def pipeSettled (u : Uplink) : Prop :=
  u.receipts ≠ [] ∧ (u.sending ≠ none ∨ (u.noticeOnPipe ≠ none ∧ UplinkClass.receipt ∈ u.turns))

/-- Behind a receipt the arbiter chooses nothing new. -/
theorem arbitrate_of_settled (h : pipeSettled s.uplink) : s.arbitrate = s := by
  obtain ⟨hr, hs | ⟨hn, ht⟩⟩ := h
  · simp [State.arbitrate, hs]
  · have hfirst : s.uplink.firstClass = some .receipt := by simp [Uplink.firstClass, hr]
    have hchoose : s.uplink.choose .receipt = s.uplink := by simp [Uplink.choose, hn, ht]
    unfold State.arbitrate
    split
    · simp [hfirst, hchoose]
    · rfl

/-- A receipt that has just been queued settles what the pipe sends. -/
theorem pipeSettled_of_receiptQueued {r : Receipt} (h : receiptQueued s t r) : pipeSettled t.uplink := by
  obtain ⟨hr, hn, hpipe⟩ := h
  refine ⟨by simp [hr], ?_⟩
  split at hpipe
  · next hwait => exact .inr ⟨hn ▸ hwait.2, hpipe.2⟩
  · exact .inl (by simp [hpipe])

theorem sendGather_of_settled (h : pipeSettled s.uplink) (g : GatherReport) :
    (s.sendGather g).uplink = { s.uplink with gathers := s.uplink.gathers ++ [g] } := by
  set q : State := { s with uplink := { s.uplink with gathers := s.uplink.gathers ++ [g] } } with hq
  have hset : pipeSettled q.uplink := h
  exact congrArg State.uplink (arbitrate_of_settled hset)

theorem complete_of_findOp (h : s.findOp tag = some o) (v : Verdict) :
    s.complete tag v =
      (s.modOp tag fun o => { o with phase := .reporting v s.now }).sendGather (o.report v s.now) := by
  simp only [State.complete, h]

/-- What the completion of an entry makes of the table and of the uplink. -/
structure completes (s t : State) (o : Operation) (c : CancelCause) (v : Verdict) : Prop where
  ops : t.ops = replaced s.ops (o.closed c v s.now)
  receipts : t.uplink.receipts = s.uplink.receipts
  gathers : t.uplink.gathers = s.uplink.gathers ++ [(o.closed c v s.now).report v s.now]
  bridgeOuts : t.uplink.bridgeOuts = s.uplink.bridgeOuts
  notices : t.uplink.notices = s.uplink.notices
  settled : pipeSettled s.uplink →
    t.uplink.noticeOnPipe = s.uplink.noticeOnPipe ∧ t.uplink.sending = s.uplink.sending ∧ t.uplink.turns = s.uplink.turns

/-- An entry whose open members are cancelled, with their slots asked or not, and which then completes. -/
theorem complete_after_asks (l : List SlotId) (r : SlotRequest) (h : uniqueEntry s o) :
    completes s ((l.foldl (fun s i => s.ask i r) (s.modOp o.tag fun q => q.cancelRest c)).complete o.tag v) o c v := by
  set m := s.modOp o.tag fun q => q.cancelRest c with hm
  set u := l.foldl (fun s i => s.ask i r) m with hu
  have hk := asks_keep l r m
  have hops : u.ops = replaced s.ops (o.cancelRest c) := (hk .operations (by decide)).trans (modOp_ops h rfl)
  have huplink : u.uplink = s.uplink := hk .uplink (by decide)
  have hnow : u.now = s.now := hk .time (by decide)
  have hunique : uniqueEntry u (o.cancelRest c) := uniqueEntry_of_replaced h.mem_tags hops
  set w := u.modOp o.tag fun q => { q with phase := .reporting v u.now } with hw
  have hwops : w.ops = replaced s.ops (o.closed c v s.now) := by
    refine (modOp_ops hunique rfl).trans ?_
    rw [hnow, closed_eq, hops]
    exact replaced_replaced (p := o.closed c v s.now) s.ops rfl
  have hwu : w.uplink = s.uplink := huplink
  have hreport : (o.cancelRest c).report v u.now = (o.closed c v s.now).report v s.now := by rw [hnow]; rfl
  rw [complete_of_findOp (tag := o.tag) hunique.findOp, hreport]
  obtain ⟨hreceipts, hgathers, hbridgeOuts, hnotices, -⟩ := sendGather_classes w ((o.closed c v s.now).report v s.now)
  rw [hwu] at hreceipts hgathers hbridgeOuts hnotices
  refine ⟨(sendGather_keeps w _ .operations (by decide)).trans hwops, hreceipts, hgathers, hbridgeOuts, hnotices,
    fun hset => ?_⟩
  rw [sendGather_of_settled (hwu ▸ hset), hwu]
  exact ⟨rfl, rfl, rfl⟩

theorem cancelMembers_of_findOp (h : s.findOp tag = some o) (c : CancelCause) :
    s.cancelMembers tag c =
      o.openSlots.foldl (fun s i => s.ask i (.withdraw tag)) (s.modOp tag fun q => q.cancelRest c) := by
  simp only [State.cancelMembers, h]

theorem slot_cancelMembers (h : s.findOp o.tag = some o) (c : CancelCause) (j : SlotId) :
    (s.cancelMembers o.tag c).slot j = { s.slot j with requests := (s.slot j).requests ++ o.withdrawsOn j } := by
  rw [cancelMembers_of_findOp h, slot_asks]; rfl

theorem cancel_completes (h : uniqueEntry s o) (c : CancelCause) (v : Verdict) :
    completes s ((s.cancelMembers o.tag c).complete o.tag v) o c v := by
  rw [cancelMembers_of_findOp h.findOp]
  exact complete_after_asks _ _ h

/-- An entry that is cancelled and completes, as the statements say it. -/
theorem cancel_operationCompletes (h : uniqueEntry s o) (c : CancelCause) (v : Verdict) :
    operationCompletes s ((s.cancelMembers o.tag c).complete o.tag v) o c v := by
  have hc := cancel_completes h c v
  have hk := ((cancelMembers_keeps s o.tag c).mono (B := fanOutParts) (by decide)).step (complete_keeps _ o.tag v)
    (by decide)
  exact ⟨hc.ops, hk, hc.receipts, hc.gathers, hc.bridgeOuts, hc.notices, fun j => by
    rw [slot_complete, slot_cancelMembers h.findOp]⟩

/-! ### Evaluation -/

theorem evaluate_of_decision (h : s.findOp o.tag = some o) (hlive : o.phase = .live) (hd : o.decision = some v) :
    s.evaluate o.tag = (s.cancelMembers o.tag .earlyDone).complete o.tag v := by
  simp only [State.evaluate, h, hlive, hd, if_true]

theorem evaluate_of_undecided (h : s.findOp o.tag = some o) (hlive : o.phase = .live) (hd : o.decision = none) :
    s.evaluate o.tag = s := by
  simp only [State.evaluate, h, hlive, hd, if_true]

theorem endMember_of_admits {admits : MemberStatus → Bool} {st : Operation → Member → MemberStatus} {m : Member}
    (h : s.findOp tag = some o) (hlive : o.phase = .live) (hm : o.member i = some m) (ha : admits m.status = true) :
    s.endMember tag i admits st = (s.modOp tag fun o => o.finish i (st o m)).evaluate tag := by
  simp only [State.endMember, h, hlive, hm, ha, if_true]

/-- A member that is not admitted, or of an entry that is not LIVE, is left as it is (R84). -/
theorem endMember_eq_self {admits : MemberStatus → Bool} (st : Operation → Member → MemberStatus)
    (h : ∀ o ∈ s.ops, o.tag = tag → o.phase ≠ .live ∨ ∀ m, o.member i = some m → admits m.status = false) :
    s.endMember tag i admits st = s := by
  unfold State.endMember
  split
  · next o hfind =>
    obtain ⟨ho, ht⟩ := mem_of_findOp hfind
    split
    · next hlive =>
      split
      · next m hm =>
        obtain hphase | hadmits := h o ho ht
        · exact absurd hlive hphase
        · simp [hadmits m hm]
      · rfl
    · rfl
  · rfl

/-- The entry after a member's end completes from the table with the member ended. -/
theorem operationCompletes_after {u : State} (hops : u.ops = replaced s.ops o) (hk : keepsBut [.operations] s u)
    (h : operationCompletes u t o c v) : operationCompletes s t o c v := by
  obtain ⟨htops, htk, hreceipts, hgathers, hbridgeOuts, hnotices, hslot⟩ := h
  have huplink : u.uplink = s.uplink := hk .uplink (by decide)
  have hnow : u.now = s.now := hk .time (by decide)
  rw [huplink] at hreceipts hgathers hbridgeOuts hnotices
  rw [hnow] at htops hgathers
  refine ⟨htops.trans ?_, (hk.mono (by decide)).step htk (by decide), hreceipts, hgathers, hbridgeOuts, hnotices,
    fun j => ?_⟩
  · rw [hops]; exact replaced_replaced (p := o.closed c v s.now) s.ops rfl
  · rw [hslot j, State.slot_congr (hk.slots (by decide)) j]

/-- A report that ends an admitted member of a LIVE entry: the entry holds the member's end, and its policy is evaluated. -/
theorem endMember_memberEnds {admits : MemberStatus → Bool} {st : Operation → Member → MemberStatus} {m : Member}
    (h : uniqueEntry s o) (hlive : o.phase = .live) (hm : o.member i = some m) (ha : admits m.status = true) :
    memberEnds s (s.endMember o.tag i admits st) o i (st o m) := by
  rw [endMember_of_admits h.findOp hlive hm ha]
  set p := o.ended i (st o m) with hp
  set u := s.modOp o.tag fun o => o.finish i (st o m) with hu
  have hops : u.ops = replaced s.ops p := (modOp_ops h rfl).trans (by rw [finish_eq_ended])
  have hk : keepsBut [.operations] s u := modOp_keeps s _ _
  have hunique : uniqueEntry u p := uniqueEntry_of_replaced h.mem_tags hops
  change memberEnds s (u.evaluate p.tag) o i (st o m)
  cases hd : p.decision with
  | some v =>
    rw [evaluate_of_decision hunique.findOp hlive hd]
    simp only [memberEnds, ← hp, hd]
    exact operationCompletes_after hops hk (cancel_operationCompletes hunique _ v)
  | none =>
    rw [evaluate_of_undecided hunique.findOp hlive hd]
    simp only [memberEnds, ← hp, hd]
    exact ⟨hops, hk⟩

end Sys2Proof.Machine.FanOut
end

section
/-! PROOF. CANCEL, the completion policy, what a slot engine takes and what the fan-out engine takes (4.3 to 4.7): the
statements of tier 2 about the operations that stand in the table. -/

namespace Sys2Proof.Machine.FanOut

open Tables

variable {s t : State} {o : Operation} {m : Member} {tag : Tag} {i : SlotId}

/-! ### The completion policy -/

section
variable (hne : o.members ≠ [])
include hne

theorem decision_all (hp : o.policy = .all) :
    o.decision =
      if o.final = o.members.length then some (if o.passed = o.members.length then .pass else .fail) else none := by
  simp [Operation.decision, hp, hne]

theorem decision_any (hp : o.policy = .any) :
    o.decision = if 0 < o.passed then some .pass else if o.final = o.members.length then some .fail else none := by
  simp [Operation.decision, hp, hne]

theorem decision_quorum {k : Nat} (hp : o.policy = .quorum k) :
    o.decision =
      if k ≤ o.passed then some .pass
      else if o.passed + (o.members.length - o.final) < k then some .fail
      else none := by
  simp [Operation.decision, hp, hne]

end

/-- The members that are final and those that are not are all of them. -/
theorem length_final_add_open (l : List Member) :
    (l.filter fun m => m.status.isFinal).length + (l.filter fun m => !m.status.isFinal).length = l.length :=
  (List.length_eq_length_filter_add fun m : Member => m.status.isFinal).symm

theorem isFinal_of_isPassed {st : MemberStatus} (h : st.isPassed = true) : st.isFinal = true := by
  cases st with
  | passed r => rfl
  | _ => cases h

/-- Settles O28: the counts of a sound entry are those of its members, and the policy reads nothing else. -/
theorem completionPolicyDecides : Obligations.CompletionPolicyDecides := by
  intro o hsound passed left
  obtain ⟨hpassed, -, hfinal, -, -⟩ := hsound
  change o.passed = passed at hpassed
  have hopen : o.final + left = o.members.length := hfinal ▸ length_final_add_open o.members
  have hpass : passed = o.members.length ↔ ∀ m ∈ o.members, m.status.isPassed = true :=
    List.length_filter_eq_length_iff
  have hfin : o.final = o.members.length ↔ ∀ m ∈ o.members, m.status.isFinal = true :=
    hfinal ▸ List.length_filter_eq_length_iff
  have hsome : 0 < passed ↔ ∃ m ∈ o.members, m.status.isPassed = true := List.length_filter_pos_iff
  refine ⟨fun hnil => by simp [Operation.decision, hnil], fun hne => ⟨fun hp => ?_, fun hp => ?_, fun k hp => ?_⟩⟩
  · rw [decision_all hne hp, hpassed]
    refine ⟨fun hleft => if_neg ?_, fun hall => ?_, fun hall hnot => ?_⟩
    · simpa [hfin] using hleft
    · have hallFinal : o.final = o.members.length :=
        hfin.mpr fun m hm => isFinal_of_isPassed (hall m hm)
      rw [if_pos hallFinal, if_pos (hpass.mpr hall)]
    · rw [if_pos (hfin.mpr hall), if_neg (by simpa [hpass] using hnot)]
  · rw [decision_any hne hp, hpassed]
    refine ⟨fun hp => if_pos (hsome.mpr hp), fun hall => ?_, fun hnone hleft => ?_⟩
    · rw [if_neg (by simpa [hsome] using fun m hm => (hall m hm).2), if_pos (hfin.mpr fun m hm => (hall m hm).1)]
    · rw [if_neg (by simpa [hsome] using hnone), if_neg (by simpa [hfin] using hleft)]
  · rw [decision_quorum hne hp, hpassed]
    refine ⟨fun hk => if_pos hk, fun hk => ?_, fun hk hk' => ?_⟩
    · rw [if_neg (by omega), if_pos (by omega)]
    · rw [if_neg (by omega), if_neg (by omega)]

/-! ### CANCEL -/

section
variable {target : Tag} (h : s.intakeOpen = true)
include h

theorem cancel_notFound (hf : s.findOp target = none) :
    exec (.cancel tag (.shaped target)) s = .next (s.answer tag codeCancel .notFound) := by
  change execCancel tag (.shaped target) s = _
  simp only [execCancel, requestWith_shaped h, hf]

theorem cancel_tooLate (hf : s.findOp target = some o) (hphase : o.phase ≠ .live) :
    exec (.cancel tag (.shaped target)) s = .next (s.answer tag codeCancel .tooLate) := by
  change execCancel tag (.shaped target) s = _
  simp only [execCancel, requestWith_shaped h, hf, hphase, if_false]

theorem cancel_accepted (hf : s.findOp target = some o) (hphase : o.phase = .live) :
    exec (.cancel tag (.shaped target)) s =
      .next (((s.answer tag codeCancel .accepted).cancelMembers target .host).complete target .cancelled) := by
  change execCancel tag (.shaped target) s = _
  simp only [execCancel, requestWith_shaped h, hf, hphase, if_true]

end

/-- Settles O29: the receipt is queued first, and the entry then completes behind it. -/
theorem cancelEndsALiveOperation : Obligations.CancelEndsALiveOperation := by
  intro tag target s h
  refine ⟨fun hnone => ?_, fun hn o ho ht => ?_⟩
  · exact ⟨_, cancel_notFound h (findOp_eq_none_iff.mpr hnone), answer_onlyAnswers h⟩
  · subst ht
    have hs : uniqueEntry s o := uniqueEntry_of_mem hn ho
    refine ⟨fun hphase => ⟨_, cancel_tooLate h hs.findOp hphase, answer_onlyAnswers h⟩, fun hlive => ?_⟩
    set u := s.answer tag codeCancel .accepted with hu
    have huops : u.ops = s.ops := ops_of_table (table_answer s _ _ _ _ _)
    have hu' : uniqueEntry u o := (uniqueEntry_congr huops).mpr hs
    have hanswers : onlyAnswers s u ⟨tag, 0x0B, .accepted, 0, .none⟩ := answer_onlyAnswers h
    obtain ⟨⟨hqueued, -⟩, -⟩ := id hanswers
    obtain ⟨-, hsending, -⟩ := (cancel_completes hu' .host .cancelled).settled (pipeSettled_of_receiptQueued hqueued)
    exact ⟨u, _, cancel_accepted h hs.findOp hlive, hanswers, cancel_operationCompletes hu' _ _, hsending⟩

/-! ### What the fan-out engine takes -/

theorem popReport_eq {r : Report} {rest : List Report} (h : (s.slot i).reports = r :: rest) :
    s.popReport i = s.modSlot i fun x => { x with reports := rest } := by
  simp only [State.popReport, State.modSlot, h, List.drop_succ_cons, List.drop_zero]

theorem member_mem (h : o.member i = some m) : m ∈ o.members ∧ m.slot = i :=
  ⟨List.mem_of_find?_eq_some h, by simpa using List.find?_some h⟩

/-- The statuses of the members that a report ends (R81 to R83). -/
def endedBy : ReportBody → MemberStatus → Bool
  | .start .. => fun _ => false
  | .result .. | .windowExpiry => fun st => st = .active
  | .queueLimit => fun st => st = .queued
  | .drop _ | .streamDamage => fun st => !st.isFinal

/-- What a report makes of a member that it ends. -/
def endOf : ReportBody → Operation → Member → MemberStatus
  | .start .. => fun _ m => m.status
  | .result time cls payload => fun o m => resultStatus o m time cls payload
  | .windowExpiry => fun _ _ => .timedOut .window
  | .queueLimit => fun _ _ => .timedOut .queued
  | .drop cause => fun _ _ => .dropped cause
  | .streamDamage => fun _ _ => .dropped .imageDamaged

/-- The command that takes a report. -/
def takerOf (i : SlotId) : ReportBody → Instr
  | .start _ _ => .startReport i
  | .result _ _ _ => .resultReport i
  | .windowExpiry => .windowExpiryReport i
  | .queueLimit => .queueLimitReport i
  | .drop _ => .dropReport i
  | .streamDamage => .streamDamageReport i

theorem endedBy_of_final (body : ReportBody) {st : MemberStatus} (h : st.isFinal = true) : endedBy body st = false := by
  cases body with
  | start => rfl
  | drop | streamDamage => simp [endedBy, h]
  | result | windowExpiry | queueLimit =>
    cases st with
    | queued | active => cases h
    | _ => rfl

section
variable {rest : List Report}

theorem startReport_taken {time : Count} {window : Nat} (h : (s.slot i).reports = ⟨tag, .start time window⟩ :: rest) :
    exec (.startReport i) s =
      .next ((s.modSlot i fun x => { x with reports := rest }).modOp tag fun o => o.start i time window) := by
  change execStartReport i s = _
  simp only [execStartReport, h, popReport_eq h]

/-- Every report but a start report ends a member of its operation, if one stands as the report has it. -/
theorem report_taken {body : ReportBody} (h : (s.slot i).reports = ⟨tag, body⟩ :: rest)
    (hbody : ∀ time window, body ≠ .start time window) :
    exec (takerOf i body) s =
      .next ((s.modSlot i fun x => { x with reports := rest }).endMember tag i (endedBy body) (endOf body)) := by
  rw [← popReport_eq h]
  cases body with
  | start time window => exact absurd rfl (hbody time window)
  | result time cls payload =>
    change execResultReport i s = _
    simp only [execResultReport, h]; rfl
  | windowExpiry =>
    change execWindowExpiryReport i s = _
    simp only [execWindowExpiryReport, h]; rfl
  | queueLimit =>
    change execQueueLimitReport i s = _
    simp only [execQueueLimitReport, h]; rfl
  | drop cause =>
    change execDropReport i s = _
    simp only [execDropReport, h]; rfl
  | streamDamage =>
    change execStreamDamageReport i s = _
    simp only [execStreamDamageReport, h]; rfl

end

/-- A start report changes the QUEUED member of a LIVE entry, if there is one. -/
theorem start_eq_self {time : Count} {window : Nat}
    (h : o.phase ≠ .live ∨ ∀ m ∈ o.members, m.slot = i → m.status ≠ .queued) : o.start i time window = o := by
  unfold Operation.start
  split
  · next hlive =>
    have hall := h.resolve_left (not_not_intro hlive)
    have hmembers : (o.members.map fun m =>
        if m.slot = i && m.status = .queued then { m with status := .active, started := some (time, window) } else m) =
          o.members := by
      refine (List.map_congr_left fun m hm => if_neg ?_).trans (List.map_id _)
      simpa using hall m hm
    rw [hmembers]
  · rfl

/-- Settles O31: a start report changes one member's record, and a report that ends no member changes no entry. -/
theorem startsActivateAndLateReportsAreDiscarded : Obligations.StartsActivateAndLateReportsAreDiscarded := by
  refine ⟨?_, ?_⟩
  · intro i s tag time window rest o h hn ho ht hlive
    subst ht
    set u := s.modSlot i fun x => { x with reports := rest } with hu
    have hk := ((modSlot_keeps s i _).mono (B := [.operations, .slots]) (by decide)).step
      (modOp_keeps u o.tag fun o => o.start i time window) (by decide)
    refine ⟨_, startReport_taken h, hk, fun j hj => (slot_modOp u _ _ j).trans (State.slot_modSlot_ne s _ hj),
      (slot_modOp u _ _ i).trans (State.slot_modSlot_same s i _), ?_⟩
    rw [modOp_ops (s := u) (uniqueEntry_of_mem hn ho) (by simp [Operation.start, hlive])]
    simp [replaced, Operation.start, hlive, hu]
  · intro i s tag body rest h hlate c
    have hc : c = takerOf i body := by cases body <;> rfl
    have hpopped : exec c s = .next (s.modSlot i fun x => { x with reports := rest }) := by
      rw [hc]
      by_cases hstart : ∃ time window, body = .start time window
      · obtain ⟨time, window, rfl⟩ := hstart
        refine (startReport_taken h).trans (congrArg _ (modOp_eq_self fun q hq hqt => start_eq_self ?_))
        exact (hlate q hq hqt).imp_right fun hall m hm hmi hqueued => by
          have := hall m hm hmi; rw [hqueued] at this; cases this
      · refine (report_taken h fun time window hb => hstart ⟨time, window, hb⟩).trans (congrArg _ (endMember_eq_self _ ?_))
        intro q hq hqt
        exact (hlate q hq hqt).imp_right fun hall m hm =>
          endedBy_of_final body (hall m (member_mem hm).1 (member_mem hm).2)
    exact ⟨_, hpopped, modSlot_keeps s i _, fun j hj => State.slot_modSlot_ne s _ hj, State.slot_modSlot_same s i _⟩

/-- Settles O32: the five kinds of report that end a member share one rule. -/
theorem reportsEndMembers : Obligations.ReportsEndMembers := by
  intro i s tag body rest o m h hn ho ht hlive hm u
  subst ht
  have ends (hbody : ∀ time window, body ≠ .start time window) (hst : endedBy body m.status = true) :
      ∃ t, exec (takerOf i body) s = .next t ∧ memberEnds u t o i (endOf body o m) :=
    ⟨_, report_taken h hbody, endMember_memberEnds (uniqueEntry_of_mem hn ho) hlive hm hst⟩
  refine ⟨?_, ?_, ?_, ?_, ?_⟩
  · rintro time cls payload start window rfl hst hstarted r
    have hr : resultStatus o m time cls payload = if cls = .pass then .passed r else .failed r := by
      simp only [resultStatus, hstarted, r]
    exact hr ▸ ends (by simp) (by simp [endedBy, hst])
  · rintro rfl hst
    exact ends (by simp) (by simp [endedBy, hst])
  · rintro rfl hst
    exact ends (by simp) (by simp [endedBy, hst])
  · rintro cause rfl hst
    exact ends (by simp) (by simp [endedBy, hst])
  · rintro rfl hst
    exact ends (by simp) (by simp [endedBy, hst])

end Sys2Proof.Machine.FanOut
end

section
/-! PROOF. What a slot engine takes (4.3), what follows a message that has been sent (10.2) and the host port detach
(10.3). -/

namespace Sys2Proof.Machine.FanOut

open Tables

variable {s t : State} {i : SlotId} {tag : Tag}

/-! ### The slot's channel -/

/-- The oldest request has left the slot's channel, where `rest` waits. -/
def leaveRequests (s : State) (i : SlotId) (rest : List SlotRequest) : State :=
  s.modSlot i fun x => { x with requests := rest }

theorem leaveRequests_keeps (s : State) (i : SlotId) (rest : List SlotRequest) :
    keepsBut [.slots] s (leaveRequests s i rest) := modSlot_keeps s i _

@[simp] theorem slot_leaveRequests_same (s : State) (i : SlotId) (rest : List SlotRequest) :
    (leaveRequests s i rest).slot i = { s.slot i with requests := rest } := State.slot_modSlot_same s i _

theorem slot_leaveRequests_ne (s : State) (i : SlotId) (rest : List SlotRequest) :
    slotsBut (· = i) s (leaveRequests s i rest) := fun _ hj => State.slot_modSlot_ne s _ hj

/-! ### A slot engine takes an append -/

theorem append_taken {e : QueueEntry} {rest : List SlotRequest} (h : (s.slot i).requests = .append e :: rest) :
    exec (.append i) s = .next ((leaveRequests s i rest).takeAppend i e) := by
  change execAppend i s = _
  simp only [execAppend, State.takeRequest, h]
  rfl

theorem admission_queued {state : SlotState} {depth : Nat} (hq : state.queueing = true) (hd : depth < 4) :
    admission state depth = .queued := by
  simp [admission, hq, Config.queueDepth, hd]

theorem admission_skipped {state : SlotState} {depth : Nat} (h : state.queueing = false ∨ 4 ≤ depth) :
    admission state depth = .skipped (if state.queueing then .queueFull else .state state) := by
  unfold admission
  cases hq : state.queueing with
  | false => simp
  | true =>
    have hfull : ¬ depth < Config.queueDepth := Nat.not_lt.mpr (h.resolve_left (by simp [hq]))
    simp [hfull]

theorem takeAppend_queued {e : QueueEntry} (h : admission (s.slot i).state (s.slot i).queue.length = .queued) :
    s.takeAppend i e = (s.modSlot i fun x => { x with queue := x.queue ++ [e] }).slotWork i := by
  simp only [State.takeAppend, h, if_true]

theorem takeAppend_skipped {e : QueueEntry} {cause : SkipCause}
    (h : admission (s.slot i).state (s.slot i).queue.length = .skipped cause) :
    s.takeAppend i e = s.endMember e.tag i (fun st => st = .queued) fun _ _ => .skipped cause := by
  simp only [State.takeAppend, h]
  rw [if_neg (by simp)]

/-! ### A slot engine takes a withdraw -/

theorem withdraw_taken {rest : List SlotRequest} (h : (s.slot i).requests = .withdraw tag :: rest) :
    exec (.withdraw i) s = .next ((leaveRequests s i rest).takeWithdraw i tag) := by
  change execWithdraw i s = _
  simp only [execWithdraw, State.takeRequest, h]
  rfl

/-- A withdraw is applied to wherever the member stands: the queue, a directive in flight, a stream in flight (R78). -/
theorem takeWithdraw_eq (s : State) (i : SlotId) (tag : Tag) :
    s.takeWithdraw i tag =
      if tag ∈ (s.slot i).queue.map (·.tag) then
        s.modSlot i fun x => { x with queue := x.queue.filter fun e => e.tag != tag }
      else if (s.slot i).inFlight.bind (·.owner) = some tag ∧ (s.slot i).state = .busy then
        s.modSlot i fun x => { x with inFlight := x.inFlight.map fun f => { f with owner := none } }
      else if (s.slot i).inFlight.bind (·.owner) = some tag ∧ (s.slot i).state = .streaming then s.enterAborting i
      else s := by
  have hqueue : ((s.slot i).queue.any fun e => decide (e.tag = tag)) = true ↔ tag ∈ (s.slot i).queue.map (·.tag) := by
    simp
  unfold State.takeWithdraw
  by_cases hq : tag ∈ (s.slot i).queue.map (·.tag)
  · rw [if_pos hq]
    exact if_pos (hqueue.mpr hq)
  rw [if_neg hq]
  refine (if_neg (mt hqueue.mp hq)).trans ?_
  cases hf : (s.slot i).inFlight with
  | none => simp
  | some f =>
    by_cases ho : f.owner = some tag
    · cases hst : (s.slot i).state <;> simp [ho]
    · simp [ho]

/-! ### The reference of a stream -/

/-- The slots of a set of one, counted where a test of the slot holds. -/
theorem length_filter_one (i : SlotId) (p : SlotId → Bool) :
    ((List.finRange 24).filter fun j => j == i && p j).length = if p i then 1 else 0 := by
  have hsame : (fun j => j == i && p j) = fun j => j == i && p i := by
    funext j
    by_cases hj : j = i
    · rw [hj]
    · simp [beq_false_of_ne hj]
  rw [hsame]
  cases p i with
  | false => simp
  | true =>
    simp only [Bool.and_true, if_true, ← List.count_eq_length_filter]
    exact List.count_eq_one_of_mem (List.nodup_finRange 24) (List.mem_finRange i)

/-- A slot's stream that holds a reference releases it, and no other count changes (R141). -/
theorem releaseReference_releases (s : State) (i : SlotId) : releasesReferences s (s.releaseReference i) (· == i) := by
  intro k
  rw [length_filter_one i fun j => (s.slot j).holds k]
  unfold State.releaseReference Slot.holds
  cases hr : (s.slot i).stream with
  | none => simp
  | some r =>
    cases hheld : r.referenceHeld with
    | false => simp [hheld]
    | true =>
      simp only [hheld, if_true, Bool.true_and, beq_iff_eq, State.image_modSlot, State.image_modImage]
      by_cases hk : r.image = k
      · subst hk; simp
      · simp [hk, Ne.symm hk]

theorem enterAborting_releases (s : State) (i : SlotId) : releasesReferences s (s.enterAborting i) (· == i) :=
  releaseReference_releases s i

/-- The requests that wait have no part in what a slot's stream holds. -/
theorem holds_leaveRequests (s : State) (i : SlotId) (rest : List SlotRequest) (j : SlotId) (k : ImageId) :
    ((leaveRequests s i rest).slot j).holds k = (s.slot j).holds k := by
  by_cases hj : j = i
  · subst hj; rw [slot_leaveRequests_same]; rfl
  · rw [slot_leaveRequests_ne s i rest j hj]

theorem releases_of_leaveRequests {rest : List SlotRequest} {gone : SlotId → Bool}
    (h : releasesReferences (leaveRequests s i rest) t gone) : releasesReferences s t gone := by
  simp only [releasesReferences, holds_leaveRequests] at h
  exact h

/-- What a withdraw makes of the slot and of the image records. -/
theorem takeWithdraw_spec (s : State) (i : SlotId) (tag : Tag) :
    keepsBut [.images, .slots] s (s.takeWithdraw i tag) ∧ slotsBut (· = i) s (s.takeWithdraw i tag) ∧
      let x := s.slot i
      let owns := x.inFlight.bind (·.owner) = some tag
      let t := s.takeWithdraw i tag
      if tag ∈ x.queue.map (·.tag) then
        t.images = s.images ∧ t.slot i = { x with queue := x.queue.filter fun e => e.tag != tag }
      else if owns ∧ x.state = .busy then
        t.images = s.images ∧ t.slot i = { x with inFlight := x.inFlight.map fun f => { f with owner := none } }
      else if owns ∧ x.state = .streaming then releasesReferences s t (· == i) ∧ t.slot i = x.released.abortingFrom
      else t.images = s.images ∧ t.slot i = x := by
  have hmod (f : Slot → Slot) : keepsBut [.images, .slots] s (s.modSlot i f) ∧ slotsBut (· = i) s (s.modSlot i f) ∧
      (s.modSlot i f).images = s.images ∧ (s.modSlot i f).slot i = f (s.slot i) :=
    ⟨(modSlot_keeps s i f).mono (by decide), fun j hj => State.slot_modSlot_ne s f hj, rfl, State.slot_modSlot_same s i f⟩
  rw [takeWithdraw_eq]
  dsimp only
  by_cases hqueue : tag ∈ (s.slot i).queue.map (·.tag)
  · simp only [if_pos hqueue]
    exact hmod _
  simp only [if_neg hqueue]
  by_cases hbusy : (s.slot i).inFlight.bind (·.owner) = some tag ∧ (s.slot i).state = .busy
  · simp only [if_pos hbusy]
    exact hmod _
  simp only [if_neg hbusy]
  split
  · refine ⟨enterAborting_keeps s i, fun j hj => ?_, enterAborting_releases s i, ?_⟩
    · rw [slot_enterAborting, if_neg hj]
    · rw [slot_enterAborting, if_pos rfl]
  · exact ⟨.refl _ s, fun _ _ => rfl, rfl, rfl⟩

/-- Settles O30: an append goes by the slot's admission of it, a withdraw by where the member stands. -/
theorem slotRequestsAreTakenByState : Obligations.SlotRequestsAreTakenByState := by
  refine ⟨?_, ?_⟩
  · intro i s e rest h
    have hkeeps := leaveRequests_keeps s i rest
    have hslots := slot_leaveRequests_ne s i rest
    have hslot := slot_leaveRequests_same s i rest
    refine ⟨fun hq hd => ?_, fun hfull hn => ?_⟩
    · have hjoins := takeAppend_queued (e := e) (by rw [hslot]; exact admission_queued hq hd)
      refine ⟨_, (leaveRequests s i rest).modSlot i fun x => { x with queue := x.queue ++ [e] }, append_taken h, hjoins,
        hkeeps.trans (modSlot_keeps _ i _), fun j hj => (State.slot_modSlot_ne _ _ hj).trans (hslots j hj), ?_⟩
      rw [State.slot_modSlot_same, hslot]
    · have hskips := takeAppend_skipped (e := e) (by rw [hslot]; exact admission_skipped hfull)
      have htaken := (append_taken h).trans (congrArg _ hskips)
      refine ⟨fun o ho ht hlive m hm hst => ?_, fun hnone => ?_⟩
      · rw [← ht] at htaken
        exact ⟨_, _, htaken, hkeeps, hslots, hslot,
          endMember_memberEnds (uniqueEntry_of_mem hn ho) hlive hm (by simp [hst])⟩
      · refine ⟨_, htaken.trans (congrArg _ (endMember_eq_self _ fun q hq hqt => ?_)), hkeeps, hslots, hslot⟩
        exact (hnone q hq hqt).imp_right fun hall m hm => by simpa using hall m hm
  · intro i s tag rest h x owns
    have hslot := slot_leaveRequests_same s i rest
    obtain ⟨hkeeps, hslots, hspec⟩ := takeWithdraw_spec (leaveRequests s i rest) i tag
    rw [hslot] at hspec
    refine ⟨_, withdraw_taken h, ((leaveRequests_keeps s i rest).mono (by decide)).trans hkeeps,
      fun j hj => (hslots j hj).trans (slot_leaveRequests_ne s i rest j hj), ?_⟩
    dsimp only at hspec
    split_ifs at hspec ⊢
    · exact hspec
    · exact hspec
    · exact ⟨releases_of_leaveRequests hspec.1, hspec.2⟩
    · exact hspec

/-! ### Messages that have been sent -/

/-- On a pipe with no message and no notice on it, the arbiter of a CONFIGURED port begins the first class that holds a
message (R188). -/
theorem arbitrate_free_pipe (hs : s.uplink.sending = none) (hn : s.uplink.noticeOnPipe = none) :
    s.arbitrate.uplink = { s.uplink with sending := if s.port.configured then s.uplink.firstClass else none } := by
  have hsame : ({ s.uplink with sending := none } : Uplink) = s.uplink := by rw [← hs]
  unfold State.arbitrate
  cases hc : s.port.configured with
  | false => simp [hsame]
  | true =>
    cases hf : s.uplink.firstClass with
    | none => simp [hs, hsame]
    | some c => simp [hs, Uplink.choose, hn]

theorem receiptSent_taken {r : Receipt} {rest : List Receipt} (hs : s.uplink.sends .receipt = true)
    (hr : s.uplink.receipts = r :: rest) (hrestart : ¬ (r.kind = 0x02 ∧ r.result = .accepted ∧ s.port.intakeHold = true)) :
    exec .receiptSent s = .next (State.arbitrate { s with uplink := { s.uplink.freed with receipts := rest } }) := by
  have hends : r.endsRestart s.port = false := by
    rw [← Bool.not_eq_true]
    simpa [Receipt.endsRestart, codeRestart] using hrestart
  change execReceiptSent s = _
  simp only [execReceiptSent, hs, hr, hends, Bool.false_eq_true, if_false]

theorem gatherReportSent_taken {g : GatherReport} {rest : List GatherReport} (hs : s.uplink.sends .gather = true)
    (hg : s.uplink.gathers = g :: rest) :
    exec .gatherReportSent s =
      .next (State.arbitrate
        { s with
          ops := s.ops.filter fun o => o.tag != g.tag
          uplink := { s.uplink.freed with gathers := rest } }) := by
  have hfilter : (fun o : Operation => !(decide (o.tag = g.tag))) = fun o => o.tag != g.tag := by
    funext o
    rw [Bool.eq_iff_iff]
    simp
  change execGatherReportSent s = _
  simp only [execGatherReportSent, hs, hg, hfilter]

theorem sends_iff (u : Uplink) (c : UplinkClass) :
    u.sends c = true ↔ u.sending = some c ∨ (u.sending = none ∧ u.noticeOnPipe ≠ none ∧ c ∈ u.turns) := by
  simp [Uplink.sends, Option.isSome_iff_ne_none, and_assoc]

/-- Settles O10: what has been sent leaves its class and frees the pipe, on which the arbiter then begins the next. -/
theorem uplinkSendsTheFirstClass : Obligations.UplinkSendsTheFirstClass := by
  refine ⟨?_, ?_, ?_, sends_iff⟩
  · intro s r rest hs hr hrestart
    exact ⟨_, receiptSent_taken hs hr hrestart, (withUplink_keeps s _).trans (arbitrate_keeps _), arbitrate_free_pipe rfl rfl⟩
  · intro s g rest hs hg
    set v : State := { s with ops := s.ops.filter fun o => o.tag != g.tag } with hv
    set u : State := { v with uplink := { s.uplink.freed with gathers := rest } } with hu
    have hk : keepsBut [.uplink, .operations] s u :=
      ((withOps_keeps s _).mono (by decide)).step (withUplink_keeps v _) (by decide)
    exact ⟨_, gatherReportSent_taken hs hg, hk.step (arbitrate_keeps u) (by decide),
      arbitrate_keeps u .operations (by decide), arbitrate_free_pipe (s := u) rfl rfl⟩
  · intro s hs
    set u : State := { s with port := { s.port with configured := true } } with hu
    refine ⟨u.arbitrate, rfl, ((withPort_keeps s _).mono (by decide)).step (arbitrate_keeps u) (by decide),
      arbitrate_keeps u .port (by decide), ?_⟩
    unfold State.arbitrate
    cases s.uplink.firstClass with
    | none => simp [hu, hs]
    | some c => simp only [hu, hs, Uplink.choose, Option.isNone_none, Bool.and_self, if_true, Option.isNone_iff_eq_none]

/-! ### Host port detach -/

theorem slot_detachOperations_fold (l : List Operation) (s : State) (j : SlotId) :
    (l.foldl (fun t o => if o.phase = .live then o.openSlots.foldl (fun t i => t.ask i (.withdraw o.tag)) t else t) s).slot j =
      { s.slot j with
        requests := (s.slot j).requests ++ (l.filter fun o => o.phase = .live).flatMap fun o => o.withdrawsOn j } := by
  induction l generalizing s with
  | nil => simp
  | cons o l ih =>
    rw [List.foldl_cons, ih]
    by_cases hlive : o.phase = .live
    · simp [hlive, slot_asks, Operation.withdrawsOn]
    · simp [hlive]

theorem slot_detachOperations (s : State) (j : SlotId) :
    s.detachOperations.slot j =
      { s.slot j with
        requests := (s.slot j).requests ++ (s.ops.filter fun o => o.phase = .live).flatMap fun o => o.withdrawsOn j } :=
  slot_detachOperations_fold s.ops s j

theorem detachOperations_keeps (s : State) : keepsBut [.operations, .slots] s s.detachOperations := by
  refine keepsBut.step (C := [.operations, .slots]) (keepsBut.foldl _ (fun t o => ?_) s.ops s) (withOps_keeps _ [])
    (by decide)
  split
  · exact (asks_keep _ _ t).mono (by decide)
  · exact .refl _ t

/-- A bridged slot after its orderly exit; any other slot is as it was (R171). -/
def unbridged (x : Slot) (now : Count) : Slot :=
  if x.state = .bridge then
    { x with
      state := .booting, bridge := none, link := LinkState.rest, tx := ⟨none, [], some ⟨now, 2⟩, 0⟩
      allowance := some ⟨.resync, ⟨now, 1000⟩⟩ }
  else x

theorem slot_leaveIfBridged (s : State) (i j : SlotId) :
    (if (s.slot i).state = .bridge then s.leaveBridge i else s).slot j =
      if j = i then unbridged (s.slot i) s.now else s.slot j := by
  unfold unbridged
  by_cases hb : (s.slot i).state = .bridge
  · rw [if_pos hb, if_pos hb]
    exact State.slot_modSlot s i j _
  · rw [if_neg hb, if_neg hb]
    split
    · next hj => rw [hj]
    · rfl

theorem leaveIfBridged_keeps (s : State) (i : SlotId) :
    keepsBut [.slots] s (if (s.slot i).state = .bridge then s.leaveBridge i else s) := by
  split
  · exact leaveBridge_keeps s i
  · exact .refl _ s

theorem slot_leaveBridges {l : List SlotId} (hl : l.Nodup) (s : State) (j : SlotId) :
    (l.foldl (fun s i => if (s.slot i).state = .bridge then s.leaveBridge i else s) s).slot j =
      if j ∈ l then unbridged (s.slot j) s.now else s.slot j := by
  induction l generalizing s with
  | nil => simp
  | cons i l ih =>
    obtain ⟨hi, hl⟩ := List.nodup_cons.mp hl
    rw [List.foldl_cons, ih hl, slot_leaveIfBridged, (leaveIfBridged_keeps s i).time (by decide)]
    by_cases hj : j = i
    · subst hj; simp [hi]
    · simp [hj]

/-- The state of the port and of the uplink after a detach (R184, R189, R190). -/
def unplugged (s : State) : State :=
  { s with
    uplink := Uplink.empty
    port := { configured := false, inProgress := s.port.inProgress.bind InProgress.detached, intakeHold := false } }

/-- Settles O13: the uplink and the port first, then the withdraws of the LIVE entries, then the bridges. -/
theorem portDetachEmptiesTheUplink : Obligations.PortDetachEmptiesTheUplink := by
  intro s
  refine ⟨fun hc => ?_, fun hc => ⟨s.detachPort, ?_, ?_⟩⟩
  · change execHostPortDetach s = _
    simp only [execHostPortDetach, hc, Bool.false_eq_true, if_false]
  · change execHostPortDetach s = _
    simp only [execHostPortDetach, hc, if_true]
  set p : State := unplugged s with hp
  set m : State := p.modSlots fun _ x => { x with noticeWaiting := false, messageWaiting := false } with hm
  have hdetach : s.detachPort =
      (List.finRange 24).foldl (fun s i => if (s.slot i).state = .bridge then s.leaveBridge i else s) m.detachOperations :=
    rfl
  have hpk : keepsBut [.port, .uplink] s p :=
    ((withUplink_keeps s Uplink.empty).mono (by decide)).step (withPort_keeps { s with uplink := Uplink.empty } _) (by decide)
  have hmk : keepsBut [.slots] p m := modSlots_keeps p _
  have hok := detachOperations_keeps m
  have hlk := keepsBut.foldl _ leaveIfBridged_keeps (List.finRange 24) m.detachOperations
  have hkeeps := (((hpk.mono (B := [.port, .uplink, .operations, .slots]) (by decide)).step hmk (by decide)).step hok
    (by decide)).step hlk (by decide)
  have hops : m.ops = s.ops := hmk .operations (by decide)
  have hport : s.detachPort.port = p.port :=
    (hlk .port (by decide)).trans ((hok .port (by decide)).trans (hmk .port (by decide)))
  have huplink : s.detachPort.uplink = p.uplink :=
    (hlk .uplink (by decide)).trans ((hok .uplink (by decide)).trans (hmk .uplink (by decide)))
  have hempty : s.detachPort.ops = [] := hlk .operations (by decide)
  refine ⟨hdetach ▸ hkeeps, huplink, hempty, by rw [hport]; rfl, by rw [hport]; rfl, ?_, fun j => ?_⟩
  · rw [hport]
    change s.port.inProgress.bind InProgress.detached = _
    cases s.port.inProgress with
    | none => rfl
    | some q => cases q <;> rfl
  · have hnow : m.detachOperations.now = s.now := (hok .time (by decide)).trans (hmk .time (by decide))
    rw [hdetach, slot_leaveBridges (List.nodup_finRange 24), if_pos (List.mem_finRange j), slot_detachOperations, hops,
      hnow, hm, slot_modSlots]
    rfl

end Sys2Proof.Machine.FanOut
end

section
/-! PROOF. Sound entries of the Operation Table: what a member's end, a start, a completion and an acceptance make of the
counts of an entry (R68, R69, R72). -/

namespace Sys2Proof.Machine.FanOut

open Tables

variable {s t : State} {o p : Operation} {m : Member} {tag : Tag} {i : SlotId} {c : CancelCause} {v : Verdict}

/-! ### Counting members -/

/-- The members with a status that a test admits. -/
def countOf (f : MemberStatus → Bool) (l : List Member) : Nat := (l.filter fun m => f m.status).length

theorem sound_iff (o : Operation) :
    o.sound ↔
      o.passed = countOf MemberStatus.isPassed o.members ∧ o.failed = countOf MemberStatus.isFailed o.members ∧
        o.final = countOf MemberStatus.isFinal o.members ∧ (o.members.map (·.slot)).Nodup ∧
        (o.phase ≠ .live → ∀ m ∈ o.members, m.status.isFinal = true) := Iff.rfl

theorem countOf_cons (f : MemberStatus → Bool) (a : Member) (l : List Member) :
    countOf f (a :: l) = (if f a.status then 1 else 0) + countOf f l := by
  by_cases h : f a.status = true <;> simp [countOf, h, Nat.add_comm]

/-- A change of the members that no test sees leaves the count. -/
theorem countOf_map {f : MemberStatus → Bool} {g : Member → Member} (h : ∀ m, f (g m).status = f m.status)
    (l : List Member) : countOf f (l.map g) = countOf f l := by
  simp only [countOf, List.filter_map, List.length_map, Function.comp_def, h]

/-- One member's status changes: it is counted if the new status is, where the old one was not. -/
theorem countOf_ended {f : MemberStatus → Bool} {l : List Member} (st : MemberStatus)
    (hn : (l.map (·.slot)).Nodup) (hm : m ∈ l) (hf : f m.status = false) :
    countOf f (l.map fun q => if q.slot = m.slot then { q with status := st } else q) =
      countOf f l + if f st then 1 else 0 := by
  induction l with
  | nil => cases hm
  | cons a l ih =>
    obtain ⟨ha, hn⟩ := List.nodup_cons.mp hn
    rcases List.mem_cons.mp hm with rfl | hm
    · have hrest : (l.map fun q => if q.slot = m.slot then { q with status := st } else q) = l := by
        refine (List.map_congr_left fun q hq => if_neg fun h => ha ?_).trans (List.map_id _)
        exact List.mem_map.mpr ⟨q, hq, h⟩
      rw [List.map_cons, if_pos rfl, hrest]
      simp [countOf_cons, hf, Nat.add_comm]
    · have hne : a.slot ≠ m.slot := fun h => ha (List.mem_map.mpr ⟨m, hm, h.symm⟩)
      rw [List.map_cons, if_neg hne, countOf_cons, countOf_cons, ih hn hm, Nat.add_assoc]

theorem isPassed_false_of_open {st : MemberStatus} (h : st.isFinal = false) : st.isPassed = false := by
  cases st with
  | queued | active => rfl
  | _ => cases h

theorem isFailed_false_of_open {st : MemberStatus} (h : st.isFinal = false) : st.isFailed = false := by
  cases st with
  | queued | active => rfl
  | _ => cases h

theorem map_slot_eq {g : Member → Member} (h : ∀ m, (g m).slot = m.slot) (l : List Member) :
    (l.map g).map (·.slot) = l.map (·.slot) := by
  simp only [List.map_map, Function.comp_def, h]

/-! ### Sound entries -/

/-- An open member that ends leaves its LIVE entry sound. -/
theorem ended_sound {st : MemberStatus} (hs : o.sound) (hlive : o.phase = .live) (hm : o.member i = some m)
    (hopen : m.status.isFinal = false) (hst : st.isFinal = true) : (o.ended i st).sound := by
  obtain ⟨hpassed, hfailed, hfinal, hn, -⟩ := (sound_iff o).mp hs
  obtain ⟨hmem, rfl⟩ := member_mem hm
  refine (sound_iff _).mpr ⟨?_, ?_, ?_, ?_, fun h => absurd hlive h⟩
  · simp only [Operation.ended, countOf_ended st hn hmem (isPassed_false_of_open hopen), hpassed]
    split <;> rfl
  · simp only [Operation.ended, countOf_ended st hn hmem (isFailed_false_of_open hopen), hfailed]
    split <;> rfl
  · simp only [Operation.ended, countOf_ended st hn hmem hopen, hfinal, hst, if_true]
  · simp only [Operation.ended]
    rwa [map_slot_eq fun q => by split <;> rfl]

/-- An entry that closes is sound: every member it leaves open becomes final and is counted. -/
theorem closed_sound (hs : o.sound) (c : CancelCause) (v : Verdict) (now : Count) : (o.closed c v now).sound := by
  obtain ⟨hpassed, hfailed, hfinal, hn, -⟩ := (sound_iff o).mp hs
  have hall : ∀ m ∈ (o.closed c v now).members, m.status.isFinal = true := by
    intro m hm
    obtain ⟨q, -, rfl⟩ := List.mem_map.mp hm
    split
    · next hq => exact hq
    · rfl
  refine (sound_iff _).mpr ⟨hpassed.trans ?_, hfailed.trans ?_, ?_, ?_, fun _ => hall⟩
  · refine (countOf_map (fun q => ?_) _).symm
    cases hq : q.status.isFinal
    · simpa [MemberStatus.isPassed] using (isPassed_false_of_open hq).symm
    · rfl
  · refine (countOf_map (fun q => ?_) _).symm
    cases hq : q.status.isFinal
    · simpa [MemberStatus.isFailed] using (isFailed_false_of_open hq).symm
    · rfl
  · have hlength : countOf MemberStatus.isFinal (o.closed c v now).members = o.members.length :=
      (List.length_filter_eq_length_iff.mpr hall).trans (List.length_map _)
    rw [hlength, ← length_final_add_open o.members]
    exact congrArg (· + _) hfinal
  · simp only [Operation.closed]
    rwa [map_slot_eq fun q => by split <;> rfl]

/-- A start report leaves a LIVE entry sound: QUEUED and ACTIVE are both open. -/
theorem start_sound {time : Count} {window : Nat} (hs : o.sound) (hlive : o.phase = .live) :
    (o.start i time window).sound := by
  obtain ⟨hpassed, hfailed, hfinal, hn, -⟩ := (sound_iff o).mp hs
  have hsame {f : MemberStatus → Bool} (hf : f .active = f .queued) (q : Member) :
      f (if q.slot = i && q.status = .queued then { q with status := .active, started := some (time, window) } else q).status =
        f q.status := by
    split
    · next h =>
      simp only [Bool.and_eq_true, decide_eq_true_eq] at h
      rw [h.2]; exact hf
    · rfl
  simp only [Operation.start, hlive, if_true]
  refine (sound_iff _).mpr ⟨hpassed.trans (countOf_map (hsame rfl) _).symm, hfailed.trans (countOf_map (hsame rfl) _).symm,
    hfinal.trans (countOf_map (hsame rfl) _).symm, ?_, fun h => absurd rfl h⟩
  rwa [map_slot_eq fun q => by split <;> rfl]

/-- A member at resolution is QUEUED or SKIPPED (R72). -/
theorem admission_cases (state : SlotState) (depth : Nat) :
    admission state depth = .queued ∨ ∃ cause, admission state depth = .skipped cause := by
  unfold admission
  split
  · split
    · exact .inl rfl
    · exact .inr ⟨_, rfl⟩
  · exact .inr ⟨_, rfl⟩

/-- The entry of an accepted operation is sound: none of its members has passed or failed yet. -/
theorem newOperation_sound (s : State) (tag : Tag) (f : OperationFields) (w : SourceValues) (work : Work) :
    (s.newOperation tag f w work).sound := by
  have hnone {g : MemberStatus → Bool} (hq : g .queued = false) (hs : ∀ cause, g (.skipped cause) = false) :
      0 = countOf g (s.resolve w.set) := by
    refine (List.length_eq_zero_iff.mpr (List.filter_eq_nil_iff.mpr fun m hm => ?_)).symm
    obtain ⟨i, -, rfl⟩ := List.mem_map.mp hm
    rcases admission_cases (s.slot i).state (s.slot i).queue.length with h | ⟨cause, h⟩
    · simp [h, hq]
    · simp [h, hs]
  have hslots : ((s.resolve w.set).map (·.slot)) = slotsOf w.set := by simp [State.resolve, Function.comp_def]
  exact (sound_iff _).mpr ⟨hnone rfl fun _ => rfl, hnone rfl fun _ => rfl, rfl, hslots ▸ slotsOf_nodup w.set,
    fun h => absurd rfl h⟩

end Sys2Proof.Machine.FanOut
end

section
/-! PROOF. Every step keeps the Operation Table sound. A command that touches the table replaces or completes a LIVE entry,
appends a new one, frees a REPORTING one with its report, or empties the table and the gather reports. -/

namespace Sys2Proof.Machine.FanOut

open Tables

variable {s t : State} {o p : Operation} {tag : Tag} {i : SlotId} {c : CancelCause} {v : Verdict}

/-! ### Sound tables -/

/-- Soundness is about the table alone. -/
theorem sound_congr (h : table t = table s) (hs : s.operationsSound) : t.operationsSound := by
  unfold State.operationsSound
  rw [ops_of_table h, gathers_of_table h]
  exact hs

theorem sound_empty (ho : t.ops = []) (hg : t.uplink.gathers = []) : t.operationsSound := by
  simp [State.operationsSound, ho, hg]

theorem tagsDiffer_of_sound (hs : s.operationsSound) : tagsDiffer s :=
  have ⟨_, hn, _⟩ := hs
  hn

theorem sound_of_mem (hs : s.operationsSound) (ho : o ∈ s.ops) : o.sound :=
  have ⟨_, _, _, hsound, _⟩ := hs
  hsound o ho

/-- No report in the uplink is that of a LIVE entry. -/
theorem gather_tag_ne (hs : s.operationsSound) (ho : o ∈ s.ops) (hlive : o.phase = .live) {g : GatherReport}
    (hg : g ∈ s.uplink.gathers) : g.tag ≠ o.tag := by
  obtain ⟨-, hn, -, -, -, hreports, -⟩ := hs
  obtain ⟨q, hq, v, time, hphase, rfl⟩ := hreports g hg
  intro h
  rw [(uniqueEntry_of_mem hn ho).2 q hq h, hlive] at hphase
  cases hphase

theorem replaced_reservations (h : uniqueEntry s o) (ht : p.tag = o.tag) (hr : p.reservation = o.reservation) :
    (replaced s.ops p).map (·.reservation) = s.ops.map (·.reservation) := by
  simp only [replaced, List.map_map]
  refine List.map_congr_left fun q hq => ?_
  by_cases hqo : q.tag = o.tag
  · simp [ht, hr, h.2 q hq hqo]
  · simp [ht, hqo]

/-- A LIVE entry is replaced by a sound one with the same tag and reservation, which is LIVE or brings its report. -/
theorem sound_replaced {reports : List GatherReport} (hs : s.operationsSound) (ho : o ∈ s.ops) (hlive : o.phase = .live)
    (ht : p.tag = o.tag) (hr : p.reservation = o.reservation) (hp : p.sound) (hops : t.ops = replaced s.ops p)
    (hg : t.uplink.gathers = s.uplink.gathers ++ reports)
    (hphase : (p.phase = .live ∧ reports = []) ∨ ∃ v time, p.phase = .reporting v time ∧ reports = [p.report v time]) :
    t.operationsSound := by
  have hne {g : GatherReport} (hmem : g ∈ s.uplink.gathers) : g.tag ≠ p.tag := ht ▸ gather_tag_ne hs ho hlive hmem
  obtain ⟨hlength, hn, hsum, hsound, hgn, hreports, hreporting⟩ := hs
  have hunique := uniqueEntry_of_mem hn ho
  have hpmem : p ∈ replaced s.ops p := mem_replaced_self (ht ▸ hunique.mem_tags)
  unfold State.operationsSound
  rw [hops, hg]
  refine ⟨by simpa using hlength, by simpa using hn, by rwa [replaced_reservations hunique ht hr], fun q hq => ?_, ?_,
    fun g hmem => ?_, fun q hq hqphase => ?_⟩
  · rcases mem_replaced hq with rfl | ⟨hq, -⟩
    · exact hp
    · exact hsound q hq
  · rcases hphase with ⟨-, rfl⟩ | ⟨v, time, -, rfl⟩
    · simpa using hgn
    · rw [List.map_append, List.map_singleton, List.nodup_append_comm, List.singleton_append, List.nodup_cons]
      refine ⟨fun hmem => ?_, hgn⟩
      obtain ⟨g, hmem, hgt⟩ := List.mem_map.mp hmem
      exact hne hmem hgt
  · rcases List.mem_append.mp hmem with hmem | hmem
    · obtain ⟨q, hq, v, time, hqphase, hgq⟩ := hreports g hmem
      refine ⟨q, mem_replaced_of_ne hq fun hqp => hne hmem ?_, v, time, hqphase, hgq⟩
      rw [hgq]; exact hqp
    · rcases hphase with ⟨-, rfl⟩ | ⟨v, time, hpp, rfl⟩
      · cases hmem
      · exact ⟨p, hpmem, v, time, hpp, List.mem_singleton.mp hmem⟩
  · rw [List.map_append, List.mem_append]
    rcases mem_replaced hq with rfl | ⟨hq, -⟩
    · rcases hphase with ⟨hl, -⟩ | ⟨v, time, -, rfl⟩
      · exact absurd hl hqphase
      · exact .inr (List.mem_singleton_self _)
    · exact .inl (hreporting q hq hqphase)

/-- A LIVE entry, changed or not, closes, and its report joins the uplink. -/
theorem sound_completed (hs : s.operationsSound) (ho : o ∈ s.ops) (hlive : o.phase = .live) (ht : p.tag = o.tag)
    (hr : p.reservation = o.reservation) (hp : p.sound) (hops : t.ops = replaced s.ops (p.closed c v s.now))
    (hg : t.uplink.gathers = s.uplink.gathers ++ [(p.closed c v s.now).report v s.now]) : t.operationsSound :=
  sound_replaced hs ho hlive (p := p.closed c v s.now) ht hr (closed_sound hp c v s.now) hops hg (.inr ⟨v, s.now, rfl, rfl⟩)

/-- A sound LIVE entry with a new tag joins a table that has a place and the memory for it (R68, R73). -/
theorem sound_appended (hs : s.operationsSound) (hlength : s.ops.length < Config.operationEntries)
    (htag : o.tag ∉ s.ops.map (·.tag)) (hroom : o.reservation ≤ s.freeGather) (ho : o.sound) (hlive : o.phase = .live)
    (hops : t.ops = s.ops ++ [o]) (hg : t.uplink.gathers = s.uplink.gathers) : t.operationsSound := by
  obtain ⟨-, hn, hsum, hsound, hgn, hreports, hreporting⟩ := hs
  unfold State.operationsSound
  rw [hops, hg]
  refine ⟨?_, ?_, ?_, fun q hq => ?_, hgn, fun g hmem => ?_, fun q hq hphase => ?_⟩
  · rw [List.length_append, List.length_singleton]; exact hlength
  · rw [List.map_append, List.map_singleton, List.nodup_append_comm, List.singleton_append, List.nodup_cons]
    exact ⟨htag, hn⟩
  · rw [List.map_append, List.sum_append, List.map_singleton, List.sum_singleton]
    unfold State.freeGather at hroom
    omega
  · rcases List.mem_append.mp hq with hq | hq
    · exact hsound q hq
    · rw [List.mem_singleton.mp hq]; exact ho
  · obtain ⟨q, hq, h⟩ := hreports g hmem
    exact ⟨q, List.mem_append_left _ hq, h⟩
  · rcases List.mem_append.mp hq with hq | hq
    · exact hreporting q hq hphase
    · rw [List.mem_singleton.mp hq] at hphase
      exact absurd hlive hphase

/-- The entry of a report that has been sent is freed with its reservation (R86). -/
theorem sound_freed {g : GatherReport} {rest : List GatherReport} (hs : s.operationsSound)
    (hg : s.uplink.gathers = g :: rest) (hops : t.ops = s.ops.filter fun o => o.tag != g.tag)
    (htg : t.uplink.gathers = rest) : t.operationsSound := by
  obtain ⟨hlength, hn, hsum, hsound, hgn, hreports, hreporting⟩ := hs
  have hsub : (s.ops.filter fun o => o.tag != g.tag).Sublist s.ops := List.filter_sublist
  rw [hg, List.map_cons, List.nodup_cons] at hgn
  rw [hg] at hreports hreporting
  unfold State.operationsSound
  rw [hops, htg]
  refine ⟨hsub.length_le.trans hlength, (hsub.map _).nodup hn,
    ((hsub.map _).sum_le_sum fun _ _ => Nat.zero_le _).trans hsum, fun q hq => hsound q (hsub.subset hq), hgn.2,
    fun r hr => ?_, fun q hq hphase => ?_⟩
  · obtain ⟨q, hq, v, time, hphase, rfl⟩ := hreports r (List.mem_cons_of_mem g hr)
    refine ⟨q, List.mem_filter.mpr ⟨hq, ?_⟩, v, time, hphase, rfl⟩
    rw [bne_iff_ne]
    exact fun h => hgn.1 (h ▸ List.mem_map_of_mem hr)
  · obtain ⟨hq, hne⟩ := List.mem_filter.mp hq
    have hmem := hreporting q hq hphase
    rw [List.map_cons, List.mem_cons] at hmem
    exact hmem.resolve_left (bne_iff_ne.mp hne)

/-! ### What the fan-out engine takes -/

/-- A report or an append that ends an open member with a final status keeps the table sound. -/
theorem endMember_sound {admits : MemberStatus → Bool} {st : Operation → Member → MemberStatus} (hs : s.operationsSound)
    (ha : ∀ x, admits x = true → x.isFinal = false) (hst : ∀ o m, admits m.status = true → (st o m).isFinal = true) :
    (s.endMember tag i admits st).operationsSound := by
  by_cases hends : ∃ o ∈ s.ops, o.tag = tag ∧ o.phase = .live ∧ ∃ m, o.member i = some m ∧ admits m.status = true
  · obtain ⟨o, ho, rfl, hlive, m, hm, hadmits⟩ := hends
    have hunique := uniqueEntry_of_mem (tagsDiffer_of_sound hs) ho
    have hp : (o.ended i (st o m)).sound :=
      ended_sound (sound_of_mem hs ho) hlive hm (ha _ hadmits) (hst o m hadmits)
    have hends := endMember_memberEnds (st := st) hunique hlive hm hadmits
    unfold memberEnds at hends
    cases hd : (o.ended i (st o m)).decision with
    | some v =>
      simp only [hd] at hends
      obtain ⟨hops, -, -, hgathers, -⟩ := hends
      exact sound_completed (p := o.ended i (st o m)) hs ho hlive rfl rfl hp hops hgathers
    | none =>
      simp only [hd] at hends
      obtain ⟨hops, hk⟩ := hends
      have hgathers := congrArg Uplink.gathers (hk .uplink (by decide))
      exact sound_replaced (p := o.ended i (st o m)) hs ho hlive rfl rfl hp hops (hgathers.trans (List.append_nil _).symm)
        (.inl ⟨hlive, rfl⟩)
  · rw [endMember_eq_self]
    · exact hs
    · intro o ho ht
      by_cases hlive : o.phase = .live
      · refine .inr fun m hm => ?_
        rw [← Bool.not_eq_true]
        exact fun hadmits => hends ⟨o, ho, ht, hlive, m, hm, hadmits⟩
      · exact .inl hlive

theorem takeAppend_sound (hs : s.operationsSound) (i : SlotId) (e : QueueEntry) : (s.takeAppend i e).operationsSound := by
  rcases admission_cases (s.slot i).state (s.slot i).queue.length with h | ⟨cause, h⟩
  · rw [takeAppend_queued h]
    exact sound_congr (by simp) hs
  · rw [takeAppend_skipped h]
    exact endMember_sound hs (fun x hx => by simp only [decide_eq_true_eq] at hx; rw [hx]; rfl) fun _ _ _ => rfl

theorem takeRequest_sound (hs : s.operationsSound) (i : SlotId) : (s.takeRequest i).operationsSound := by
  unfold State.takeRequest
  split
  · exact hs
  · dsimp only
    split
    · exact takeAppend_sound (sound_congr (table_modSlot s i _) hs) i _
    · exact sound_congr (by simp) hs

/-- A fold of operations that keep the table sound keeps it sound. -/
theorem sound_foldl {α : Type} {f : State → α → State} (hf : ∀ s a, s.operationsSound → (f s a).operationsSound)
    (l : List α) (hs : s.operationsSound) : (l.foldl f s).operationsSound := by
  induction l generalizing s with
  | nil => exact hs
  | cons a l ih => exact ih (hf s a hs)

theorem drain_sound (hs : s.operationsSound) (i : SlotId) : (s.drain i).operationsSound :=
  sound_foldl (fun _ _ h => takeRequest_sound h i) _ hs

/-! ### Acceptance -/

/-- The tags in the table, which only an acceptance or a freeing changes. -/
def tags (s : State) : List Tag := s.ops.map (·.tag)

theorem tags_of_table (h : table t = table s) : tags t = tags s := by rw [tags, ops_of_table h]; rfl

theorem tags_modOp {f : Operation → Operation} (hf : ∀ q, (f q).tag = q.tag) (s : State) (tag : Tag) :
    tags (s.modOp tag f) = tags s := by
  simp only [tags, State.modOp, List.map_map]
  refine List.map_congr_left fun q _ => ?_
  by_cases h : q.tag = tag <;> simp [h, hf]

theorem tags_sendGather (s : State) (g : GatherReport) : tags (s.sendGather g) = tags s :=
  congrArg (List.map fun o : Operation => o.tag) (sendGather_keeps s g .operations (by decide))

theorem tags_complete (s : State) (tag : Tag) (v : Verdict) : tags (s.complete tag v) = tags s := by
  unfold State.complete
  split
  · exact (tags_sendGather _ _).trans (tags_modOp (by intro q; rfl) s tag)
  · rfl

theorem tags_cancelMembers (s : State) (tag : Tag) (c : CancelCause) : tags (s.cancelMembers tag c) = tags s := by
  unfold State.cancelMembers
  split
  · refine (tags_of_table (table_foldl (fun s i => table_ask s i _) _ _)).trans (tags_modOp (by intro q; rfl) s tag)
  · rfl

theorem tags_evaluate (s : State) (tag : Tag) : tags (s.evaluate tag) = tags s := by
  unfold State.evaluate
  split
  · split
    · split
      · exact (tags_complete _ _ _).trans (tags_cancelMembers s _ _)
      · rfl
    · rfl
  · rfl

theorem tags_endMember (s : State) (tag : Tag) (i : SlotId) (admits : MemberStatus → Bool)
    (st : Operation → Member → MemberStatus) : tags (s.endMember tag i admits st) = tags s := by
  unfold State.endMember
  split
  · split
    · split
      · split
        · exact (tags_evaluate _ _).trans (tags_modOp (by intro q; rfl) s tag)
        · rfl
      · rfl
    · rfl
  · rfl

theorem tags_takeRequest (s : State) (i : SlotId) : tags (s.takeRequest i) = tags s := by
  unfold State.takeRequest
  split
  · rfl
  · dsimp only
    split
    · unfold State.takeAppend
      dsimp only
      split
      · exact tags_of_table (by simp)
      · exact (tags_endMember _ _ _ _ _).trans (tags_of_table (table_modSlot s i _))
    · exact tags_of_table (by simp)

/-- A resolution takes every request that waits for the slots of the set (R75); no entry joins or leaves. -/
def drained (s : State) (set : SlotSet) : State := (slotsOf set).foldl State.drain s

theorem tags_foldl {α : Type} {f : State → α → State} (hf : ∀ s a, tags (f s a) = tags s) (l : List α) (s : State) :
    tags (l.foldl f s) = tags s := by
  induction l generalizing s with
  | nil => rfl
  | cons a l ih => exact (ih (f s a)).trans (hf s a)

theorem tags_drained (s : State) (set : SlotSet) : tags (drained s set) = tags s :=
  tags_foldl (fun s i => tags_foldl (fun s _ => tags_takeRequest s i) _ s) _ s

theorem drained_sound (hs : s.operationsSound) (set : SlotSet) : (drained s set).operationsSound :=
  sound_foldl (fun _ i h => drain_sound h i) _ hs

theorem drained_length (s : State) (set : SlotSet) : (drained s set).ops.length = s.ops.length := by
  simpa [tags] using congrArg List.length (tags_drained s set)

/-- The entry joins the table, and its receipt the uplink (R74). -/
def accepted (u : State) (o : Operation) (kind : Byte) (mask : Half) : State :=
  State.answer { u with ops := u.ops ++ [o] } o.tag kind (clampResult mask) mask
    (.accepted o.members.length o.openSlots.length)

section
variable (s : State) (tag : Tag) (kind : Byte) (f : OperationFields) (w : SourceValues) (work : Work)

theorem acceptOperation_noRoom
    (h : (drained s w.set).freeGather < ((drained s w.set).newOperation tag f w work).reservation) :
    s.acceptOperation tag kind f w work = (drained s w.set).answer tag kind .noRoom := if_pos h

theorem acceptOperation_accepted
    (h : ¬ (drained s w.set).freeGather < ((drained s w.set).newOperation tag f w work).reservation) :
    s.acceptOperation tag kind f w work =
      (accepted (drained s w.set) ((drained s w.set).newOperation tag f w work) kind (operationMask f w)).openOperation
        ((drained s w.set).newOperation tag f w work) := if_neg h

end

theorem accepted_ops (u : State) (o : Operation) (kind : Byte) (mask : Half) : (accepted u o kind mask).ops = u.ops ++ [o] :=
  answer_keeps _ _ _ _ _ _ .operations (by decide)

theorem accepted_gathers (u : State) (o : Operation) (kind : Byte) (mask : Half) :
    (accepted u o kind mask).uplink.gathers = u.uplink.gathers :=
  gathers_of_table (s := { u with ops := u.ops ++ [o] }) (table_answer _ _ _ _ _ _)

theorem accepted_unique {u : State} (kind : Byte) (mask : Half) (h : o.tag ∉ tags u) :
    uniqueEntry (accepted u o kind mask) o := by
  rw [uniqueEntry, accepted_ops]
  refine ⟨by simp, fun q hq hqo => ?_⟩
  rcases List.mem_append.mp hq with hq | hq
  · exact absurd (List.mem_map.mpr ⟨q, hq, hqo⟩) h
  · exact List.mem_singleton.mp hq

/-- An entry that its policy decides at once completes with no append (R74). -/
theorem openOperation_completes (h : uniqueEntry s o) (hd : o.decision = some v) :
    completes s (s.openOperation o) o .earlyDone v := by
  simp only [State.openOperation, hd]
  exact complete_after_asks [] (.withdraw o.tag) h

theorem openOperation_asks (hd : o.decision = none) :
    s.openOperation o = o.openSlots.foldl (fun s i => s.ask i (.append o.entry)) s := by
  simp only [State.openOperation, hd]

theorem acceptOperation_sound (hs : s.operationsSound) (hlength : s.ops.length < Config.operationEntries)
    (htag : tag ∉ tags s) (kind : Byte) (f : OperationFields) (w : SourceValues) (work : Work) :
    (s.acceptOperation tag kind f w work).operationsSound := by
  set u := drained s w.set with hu
  set o := u.newOperation tag f w work with ho
  have hus : u.operationsSound := drained_sound hs w.set
  have hutag : o.tag ∉ tags u := by rw [hu, tags_drained]; exact htag
  have hosound : o.sound := newOperation_sound u tag f w work
  by_cases hroom : u.freeGather < o.reservation
  · rw [acceptOperation_noRoom s tag kind f w work hroom]
    exact sound_congr (table_answer _ _ _ _ _ _) hus
  rw [acceptOperation_accepted s tag kind f w work hroom]
  set a := accepted u o kind (operationMask f w) with ha
  have haops : a.ops = u.ops ++ [o] := accepted_ops u o kind _
  have hasound : a.operationsSound :=
    sound_appended hus (by rwa [hu, drained_length]) hutag (Nat.not_lt.mp hroom) hosound rfl haops
      (accepted_gathers u o kind _)
  cases hd : o.decision with
  | some v =>
    have hc := openOperation_completes (accepted_unique kind (operationMask f w) hutag) hd
    exact sound_completed hasound (by simp [haops]) rfl rfl rfl hosound hc.ops hc.gathers
  | none =>
    rw [openOperation_asks hd]
    exact sound_congr (table_foldl (fun s i => table_ask s i _) _ a) hasound

theorem operate_sound (hs : s.operationsSound) (tag : Tag) (kind : Byte) (f : OperationFields)
    (work : Except ResultCode Work) : (s.operate tag kind f work).operationsSound := by
  unfold State.operate
  cases hcheck : s.checkOperation tag f work with
  | error code => exact sound_congr (table_answer s _ _ _ _ _) hs
  | ok r =>
    have hpass : (operationRefusal s tag f).or (errorOf work) = none := by
      rw [← errorOf_checkOperation, hcheck]; rfl
    obtain ⟨hsteps, -⟩ := Option.or_eq_none_iff.mp hpass
    unfold operationRefusal at hsteps
    split_ifs at hsteps with hcodes htag hfull hgroup hset
    exact acceptOperation_sound hs (Nat.not_le.mp hfull) htag kind f r.1 r.2

/-! ### The commands that touch the table -/

/-- Wherever an outcome goes on, the table is sound. -/
def goesOnSound (out : Host.Outcome State Fault Refusal) : Prop := ∀ t, out = .next t → t.operationsSound

theorem goesOnSound_next (h : t.operationsSound) : goesOnSound (.next t) := fun _ ht => by cases ht; exact h

theorem requestWith_sound {α : Type} {kind : Byte} {body : Body α} {run : α → State → State} (hs : s.operationsSound)
    (h : ∀ f, (run f s).operationsSound) : (s.requestWith tag kind body run).operationsSound := by
  unfold State.requestWith State.request
  split
  · cases body with
    | shaped f => exact h f
    | misshapen b => exact sound_congr (table_answer s _ _ _ _ _) hs
  · exact hs

theorem cancel_sound (hs : s.operationsSound) (tag : Tag) (body : Body Tag) : goesOnSound (execCancel tag body s) := by
  refine goesOnSound_next (requestWith_sound hs fun target => ?_)
  have hanswer (code : ResultCode) : (s.answer tag codeCancel code).operationsSound :=
    sound_congr (table_answer s _ _ _ _ _) hs
  cases hf : s.findOp target with
  | none => exact hanswer .notFound
  | some o =>
    obtain ⟨ho, rfl⟩ := mem_of_findOp hf
    dsimp only
    split
    · next hlive =>
      have hops : (s.answer tag codeCancel .accepted).ops = s.ops := ops_of_table (table_answer s _ _ _ _ _)
      have hmem : o ∈ (s.answer tag codeCancel .accepted).ops := hops ▸ ho
      have hc := cancel_completes (uniqueEntry_of_mem (tagsDiffer_of_sound (hanswer .accepted)) hmem) .host .cancelled
      exact sound_completed (hanswer .accepted) hmem hlive rfl rfl (sound_of_mem hs ho) hc.ops hc.gathers
    · exact hanswer .tooLate

theorem startReport_sound (hs : s.operationsSound) (i : SlotId) : goesOnSound (execStartReport i s) := by
  refine goesOnSound_next ?_
  split
  · next tag time window rest _ =>
    have hps : (s.popReport i).operationsSound := sound_congr (table_modSlot s i _) hs
    by_cases hlive : ∃ o ∈ (s.popReport i).ops, o.tag = tag ∧ o.phase = .live
    · obtain ⟨o, ho, rfl, hlive⟩ := hlive
      obtain ⟨htag, hreservation, hphase⟩ : (o.start i time window).tag = o.tag ∧
          (o.start i time window).reservation = o.reservation ∧ (o.start i time window).phase = .live := by
        simp [Operation.start, hlive]
      have hops := modOp_ops (f := fun o => o.start i time window) (uniqueEntry_of_mem (tagsDiffer_of_sound hps) ho) htag
      exact sound_replaced hps ho hlive htag hreservation (start_sound (sound_of_mem hps ho) hlive) hops
        (List.append_nil _).symm (.inl ⟨hphase, rfl⟩)
    · rw [modOp_eq_self fun q hq hqt => start_eq_self (.inl fun h => hlive ⟨q, hq, hqt, h⟩)]
      exact hps
  · exact hs

/-- The reports that end a member leave a final status. -/
theorem endOf_final {body : ReportBody} {o : Operation} {m : Member} (h : endedBy body m.status = true) :
    (endOf body o m).isFinal = true := by
  cases body with
  | start => cases h
  | result time cls payload =>
    unfold endOf resultStatus
    dsimp only
    split <;> rfl
  | _ => rfl

/-- A report leaves the slot's channel and ends its member, if one stands as the report has it. -/
theorem popReport_sound (hs : s.operationsSound) (body : ReportBody) :
    ((s.popReport i).endMember tag i (endedBy body) (endOf body)).operationsSound := by
  refine endMember_sound (sound_congr (table_modSlot s i _) hs) (fun x hx => ?_) fun _ _ => endOf_final
  rw [← Bool.not_eq_true]
  exact fun hfinal => absurd hx (by simp [endedBy_of_final body hfinal])

theorem resultReport_sound (hs : s.operationsSound) (i : SlotId) : goesOnSound (execResultReport i s) := by
  refine goesOnSound_next ?_
  split
  · exact popReport_sound hs (.result _ _ _)
  · exact hs

theorem windowExpiryReport_sound (hs : s.operationsSound) (i : SlotId) : goesOnSound (execWindowExpiryReport i s) := by
  refine goesOnSound_next ?_
  split
  · exact popReport_sound hs .windowExpiry
  · exact hs

theorem queueLimitReport_sound (hs : s.operationsSound) (i : SlotId) : goesOnSound (execQueueLimitReport i s) := by
  refine goesOnSound_next ?_
  split
  · exact popReport_sound hs .queueLimit
  · exact hs

theorem dropReport_sound (hs : s.operationsSound) (i : SlotId) : goesOnSound (execDropReport i s) := by
  refine goesOnSound_next ?_
  split
  · exact popReport_sound hs (.drop _)
  · exact hs

theorem streamDamageReport_sound (hs : s.operationsSound) (i : SlotId) : goesOnSound (execStreamDamageReport i s) := by
  refine goesOnSound_next ?_
  split
  · exact popReport_sound hs .streamDamage
  · exact hs

theorem append_sound (hs : s.operationsSound) (i : SlotId) : goesOnSound (execAppend i s) := by
  refine goesOnSound_next ?_
  split
  · exact takeRequest_sound hs i
  · exact hs

theorem table_endHold (s : State) : table s.endHold = table s := rfl

theorem table_sweep (s : State) : table s.sweep = ([], []) := rfl

/-- RESTART empties the table and the uplink's gather reports (R193). -/
theorem table_restartEffects (s : State) : table s.restartEffects = ([], []) := by
  rw [State.restartEffects, table_endHold, State.restartSlots, table_placeSlots, table_modSlots, table_sweep]

theorem receiptSent_sound (hs : s.operationsSound) : goesOnSound (execReceiptSent s) := by
  refine goesOnSound_next ?_
  split
  · dsimp only
    refine sound_congr (table_arbitrate _) ?_
    split
    · exact sound_empty (ops_of_table (s := State.reset) (table_restartEffects _))
        (gathers_of_table (s := State.reset) (table_restartEffects _))
    · exact sound_congr (by simp [Uplink.freed]) hs
  · exact hs

theorem gatherReportSent_sound (hs : s.operationsSound) : goesOnSound (execGatherReportSent s) := by
  by_cases hsent : s.uplink.sends .gather = true ∧ ∃ g rest, s.uplink.gathers = g :: rest
  · obtain ⟨hsends, g, rest, hg⟩ := hsent
    rw [show execGatherReportSent s = _ from gatherReportSent_taken hsends hg]
    exact goesOnSound_next (sound_congr (table_arbitrate _) (sound_freed hs hg rfl rfl))
  · refine goesOnSound_next ?_
    split
    · next hsends hg => exact absurd ⟨hsends, _, _, hg⟩ hsent
    · exact hs

theorem hostPortDetach_sound (hs : s.operationsSound) : goesOnSound (execHostPortDetach s) := by
  refine goesOnSound_next ?_
  split
  · next hc =>
    obtain ⟨t, ht, -, huplink, hops, -⟩ := (portDetachEmptiesTheUplink s).2 hc
    have hdetach : s.detachPort = t := by
      have h : execHostPortDetach s = .next t := ht
      simpa [execHostPortDetach, hc] using h
    rw [hdetach]
    exact sound_empty hops (by rw [huplink]; rfl)
  · exact hs

/-- POWER_ON_RESET leaves no operation and no report (R29, R194). -/
theorem powerOnReset_sound (s : State) (banks ceiling : Bool) : goesOnSound (execPowerOnReset banks ceiling s) := by
  have h : table (s.powerUp banks ceiling) = table State.reset := by
    simp only [State.powerUp, table_placeSlots, table_modSlots]; rfl
  exact goesOnSound_next (sound_empty (ops_of_table h) (gathers_of_table h))

/-! ### Every command -/

/-- Every command keeps the table sound: it leaves the table alone, or it is one of those above. -/
theorem exec_sound (hs : s.operationsSound) (c : Instr) : goesOnSound (exec c s) := by
  by_cases htouches : touchesTable c = false
  · exact fun t ht => sound_congr (exec_leavesTable htouches s t ht) hs
  cases c with
  | powerOnReset banks ceiling => exact powerOnReset_sound s banks ceiling
  | hostPortDetach => exact hostPortDetach_sound hs
  | receiptSent => exact receiptSent_sound hs
  | gatherReportSent => exact gatherReportSent_sound hs
  | direct tag body => exact goesOnSound_next (requestWith_sound hs fun f => operate_sound hs tag _ f.op _)
  | push tag body => exact goesOnSound_next (requestWith_sound hs fun f => operate_sound hs tag _ f.op _)
  | cancel tag body => exact cancel_sound hs tag body
  | append i => exact append_sound hs i
  | startReport i => exact startReport_sound hs i
  | resultReport i => exact resultReport_sound hs i
  | windowExpiryReport i => exact windowExpiryReport_sound hs i
  | queueLimitReport i => exact queueLimitReport_sound hs i
  | dropReport i => exact dropReport_sound hs i
  | streamDamageReport i => exact streamDamageReport_sound hs i
  | _ => exact absurd rfl htouches

/-- Settles O58: a step runs the command at the front of the queue, or moves the time base, which has no part in the table. -/
theorem stepKeepsOperationsSound : Obligations.StepKeepsOperationsSound := by
  intro s t hs hstep
  unfold step at hstep
  split at hstep
  · cases hstep
    exact sound_congr (table_tick s) hs
  · next c rest _ =>
    have hrest : State.operationsSound { s with pending := rest } := sound_congr rfl hs
    exact exec_sound hrest c t hstep

end Sys2Proof.Machine.FanOut
end

section
/-! PROOF. DIRECT and PUSH that pass the checks of R70: what their resolution, their acceptance and their first evaluation make
of the table, the uplink and the slots (4.4, 4.5). -/

namespace Sys2Proof.Machine.FanOut

open Tables

variable {s t u : State} {o : Operation} {tag : Tag} {kind : Byte} {mask : Half} {v : Verdict} {f : OperationFields}
  {w : SourceValues} {work : Work}

/-! ### Resolution -/

theorem drained_keeps (s : State) (set : SlotSet) : keepsBut operationParts s (drained s set) :=
  keepsBut.foldl State.drain drain_keeps (slotsOf set) s

/-- The slots of a set that take a new member into their queues, as they stand (R72). -/
def queuedOf (u : State) (set : SlotSet) : List SlotId :=
  (slotsOf set).filter fun i => (u.slot i).state.queueing && decide ((u.slot i).queue.length < 4)

theorem queuedOf_nodup (u : State) (set : SlotSet) : (queuedOf u set).Nodup := (slotsOf_nodup set).filter _

/-- A new member is open just where the slot takes it into its queue. -/
theorem admission_open (state : SlotState) (depth : Nat) :
    (!(admission state depth).isFinal) = (state.queueing && decide (depth < 4)) := by
  by_cases h : state.queueing = true ∧ depth < 4
  · obtain ⟨hq, hd⟩ := h
    rw [admission_queued hq hd, hq, decide_eq_true hd]; rfl
  · have hfull : state.queueing = false ∨ 4 ≤ depth := by
      rcases not_and_or.mp h with hq | hd
      · exact .inl (Bool.not_eq_true _ ▸ hq)
      · exact .inr (Nat.not_lt.mp hd)
    rw [admission_skipped hfull]
    rcases hfull with hq | hd
    · rw [hq]; rfl
    · simp [Nat.not_lt.mpr hd, MemberStatus.isFinal]

theorem resolve_open (u : State) (set : SlotSet) :
    ((u.resolve set).filter fun m => !m.status.isFinal).map (·.slot) = queuedOf u set := by
  simp only [State.resolve, List.filter_map, List.map_map, Function.comp_def, admission_open, List.map_id', queuedOf]

theorem openSlots_newOperation (u : State) : (u.newOperation tag f w work).openSlots = queuedOf u w.set :=
  resolve_open u w.set

/-- The entry of an accepted operation, with its counts said by the slots that take a member. -/
theorem newOperation_eq (u : State) (tag : Tag) (f : OperationFields) (w : SourceValues) (work : Work) :
    u.newOperation tag f w work =
      { tag := tag, work := work, source := w.source, policy := operationPolicy f w, service := f.service
        timeout := operationTimeout f w, reply := operationReply f w, accepted := u.now, members := u.resolve w.set
        passed := 0, failed := 0, final := (u.resolve w.set).length - (queuedOf u w.set).length
        reservation := (queuedOf u w.set).length * operationReply f w, phase := .live } := by
  have hopen : ((u.resolve w.set).filter fun m => !m.status.isFinal).length = (queuedOf u w.set).length := by
    rw [← resolve_open, List.length_map]
  have hfinal := length_final_add_open (u.resolve w.set)
  rw [hopen] at hfinal
  simp only [State.newOperation, hopen, ← hfinal, Nat.add_sub_cancel]

/-! ### Acceptance -/

/-- What is on the pipe, and what waits for it, is as it was after the receipt was queued. -/
theorem receiptQueued_congr {a : State} {r : Receipt} (h : receiptQueued u a r)
    (hreceipts : t.uplink.receipts = a.uplink.receipts) (hnotice : t.uplink.noticeOnPipe = a.uplink.noticeOnPipe)
    (hsending : t.uplink.sending = a.uplink.sending) (hturns : t.uplink.turns = a.uplink.turns) :
    receiptQueued u t r := by
  unfold receiptQueued
  rw [hreceipts, hnotice, hsending, hturns]
  exact h

/-- What becomes of an accepted operation: its receipt is queued, and it completes at once or its appends are sent (R74). -/
structure opens (u t : State) (o : Operation) (kind : Byte) (mask : Half) : Prop where
  receipt : receiptQueued u t
    ⟨o.tag, kind, clampResult mask, mask, .accepted o.members.length o.openSlots.length⟩
  keeps : keepsBut [.uplink, .operations, .slots] u t
  bridgeOuts : t.uplink.bridgeOuts = u.uplink.bridgeOuts
  notices : t.uplink.notices = u.uplink.notices
  decided : ∀ v, o.decision = some v →
    t.ops = u.ops ++ [o.closed .earlyDone v u.now] ∧ t.slots = u.slots ∧
      t.uplink.gathers = u.uplink.gathers ++ [(o.closed .earlyDone v u.now).report v u.now]
  undecided : o.decision = none →
    t.ops = u.ops ++ [o] ∧ t.uplink.gathers = u.uplink.gathers ∧
      ∀ i, t.slot i =
        { u.slot i with
          requests := (u.slot i).requests ++ (o.openSlots.filter (· = i)).map fun _ => .append o.entry }

theorem accepted_receiptJoins (hc : u.port.configured = true) :
    receiptJoins u (accepted u o kind mask)
      ⟨o.tag, kind, clampResult mask, mask, .accepted o.members.length o.openSlots.length⟩ :=
  answer_receiptJoins (s := { u with ops := u.ops ++ [o] }) hc

theorem accepted_keeps : keepsBut [.uplink, .operations] u (accepted u o kind mask) :=
  ((withOps_keeps u (u.ops ++ [o])).mono (by decide)).step (answer_keeps _ _ _ _ _ _) (by decide)

theorem accepted_opens (hc : u.port.configured = true) (htag : o.tag ∉ tags u) :
    opens u ((accepted u o kind mask).openOperation o) o kind mask := by
  set a := accepted u o kind mask with ha
  obtain ⟨hqueued, -, hbridgeOuts, hnotices⟩ := accepted_receiptJoins (o := o) (kind := kind) (mask := mask) hc
  have haops : a.ops = u.ops ++ [o] := accepted_ops u o kind mask
  have hagathers : a.uplink.gathers = u.uplink.gathers := accepted_gathers u o kind mask
  have hak : keepsBut [.uplink, .operations] u a := accepted_keeps
  have hnow : a.now = u.now := hak .time (by decide)
  cases hd : o.decision with
  | some v =>
    have hdone := openOperation_completes (accepted_unique kind mask htag) hd
    obtain ⟨hnotice, hsending, hturns⟩ := hdone.settled (pipeSettled_of_receiptQueued hqueued)
    have hk : keepsBut [.uplink, .operations] a (a.openOperation o) := by
      simp only [State.openOperation, hd]
      exact ((modOp_keeps a _ _).mono (by decide)).step (complete_keeps _ _ _) (by decide)
    refine ⟨receiptQueued_congr hqueued hdone.receipts hnotice hsending hturns, (hak.trans hk).mono (by decide),
      hdone.bridgeOuts.trans hbridgeOuts, hdone.notices.trans hnotices, fun v' hv => ?_, fun hn => ?_⟩
    · obtain rfl : v = v' := Option.some.inj (hd.symm.trans hv)
      have hops := hdone.ops
      have hgathers := hdone.gathers
      rw [hnow] at hops hgathers
      refine ⟨hops.trans ?_, (hak.trans hk).slots (by decide), hgathers.trans (by rw [hagathers])⟩
      rw [haops]
      exact replaced_append (p := o.closed .earlyDone v u.now) u.ops htag rfl
    · exact absurd (hd.symm.trans hn) (by simp)
  | none =>
    rw [openOperation_asks hd]
    have hk := asks_keep o.openSlots (.append o.entry) a
    have huplink := hk .uplink (by decide)
    refine ⟨?_, (hak.mono (by decide)).step hk (by decide), ?_, ?_, fun v hv => ?_, fun _ => ⟨?_, ?_, fun i => ?_⟩⟩
    · exact receiptQueued_congr hqueued (by rw [huplink]) (by rw [huplink]) (by rw [huplink]) (by rw [huplink])
    · rw [huplink]; exact hbridgeOuts
    · rw [huplink]; exact hnotices
    · exact absurd (hd.symm.trans hv) (by simp)
    · exact (hk .operations (by decide)).trans haops
    · rw [huplink]; exact hagathers
    · rw [slot_asks, State.slot_congr (hak.slots (by decide)) i]

/-! ### Requests that pass the checks -/

theorem directWork_ok {payload : List Byte} (h : payload.length ≤ 240) :
    directWork payload = .ok (.directive payload) := if_neg (Nat.not_lt.mpr h)

theorem pushWork_ok {image : Byte} {crc : Word} (h : image.toNat < 8)
    (hready : (s.image ⟨image.toNat, h⟩).state = .ready)
    (hcrc : (s.image ⟨image.toNat, h⟩).fields.expectedCrc = some crc) :
    s.pushWork image =
      .ok (.push ⟨image.toNat, h⟩ (s.image ⟨image.toNat, h⟩).generation (s.image ⟨image.toNat, h⟩).fields.highMark crc) := by
  simp only [State.pushWork, imageNumber, dif_pos h, hready, hcrc, Option.getD_some]

/-- The source gives the set, and the policy and limits that stand by default (R60, R71). -/
theorem readSource_ok {source : Source} {set : SlotSet} {policy : Policy} {timeout reply : Nat}
    (hsel : f.selector.toNat ≤ 1)
    (hgroup : f.selector = 0 →
      source = .group f.group.toNat ∧ s.group f.group.toNat = some ⟨set, policy, timeout, reply⟩)
    (hset : f.selector = 1 →
      source = .explicit set ∧ set = f.set ∧ s.straps.namesUnfitted set = false ∧ policy = .all ∧ timeout = 10000 ∧
        reply = 64) :
    s.readSource f = .ok ⟨source, set, policy, timeout, reply⟩ := by
  have hcases : f.selector = 0 ∨ f.selector = 1 := by bv_omega
  rcases hcases with h | h
  · obtain ⟨rfl, hg⟩ := hgroup h
    simp only [State.readSource, h, hg, if_true]
  · obtain ⟨rfl, rfl, hfit, rfl, rfl, rfl⟩ := hset h
    have hne : ¬ f.selector = 0 := by rw [h]; decide
    simp only [State.readSource, hne, hfit, if_false, Bool.false_eq_true]
    rfl

theorem operate_passes (hcodes : operationCodes f = true) (htag : tag ∉ tags s) (hlength : s.ops.length < 16)
    (hsource : s.readSource f = .ok w) : s.operate tag kind f (.ok work) = s.acceptOperation tag kind f w work := by
  have hfree : ¬ (s.findOp tag).isSome = true := fun h => htag ((findOp_isSome_iff s tag).mp h)
  have hplace : ¬ Config.operationEntries ≤ s.ops.length := Nat.not_le.mpr hlength
  have hcheck : s.checkOperation tag f (.ok work) = .ok (w, work) := by
    simp only [State.checkOperation, hcodes, hfree, hplace, hsource, Bool.not_true, Bool.false_eq_true, if_false]
  simp only [State.operate, hcheck]

section
variable {source : Source} {set : SlotSet} {policy : Policy} {timeout reply : Nat}

theorem operationPolicy_eq (hp : f.policyPresent.toNat ≤ 1) (hcode : f.policyPresent = 1 → f.policy.toNat ≤ 2) :
    operationPolicy f ⟨source, set, policy, timeout, reply⟩ =
      if f.policyPresent = 1 then
        if f.policy = 0 then .all
        else if f.policy = 1 then .any
        else .quorum (max 1 (min (clampTo 1 24 f.k.toNat) (slotCount set)))
      else policy := by
  have hcases : f.policyPresent = 0 ∨ f.policyPresent = 1 := by bv_omega
  rcases hcases with h | h
  · simp [operationPolicy, h]
  · have hne : ¬ f.policyPresent = 0 := by rw [h]; decide
    rw [if_pos h, operationPolicy, if_neg hne, policyCode_of_le (hcode h)]
    rfl

theorem operationReply_eq (hr : f.replyPresent.toNat ≤ 1) :
    operationReply f ⟨source, set, policy, timeout, reply⟩ =
      if f.replyPresent = 1 then clampTo 0 240 f.replyMax.toNat else reply := by
  have hcases : f.replyPresent = 0 ∨ f.replyPresent = 1 := by bv_omega
  rcases hcases with h | h <;> simp [operationReply, h]

theorem operationMask_eq (hp : f.policyPresent.toNat ≤ 1) (hr : f.replyPresent.toNat ≤ 1) :
    operationMask f ⟨source, set, policy, timeout, reply⟩ =
      maskOf
        [f.policyPresent == 1 && f.policy == 2 &&
            max 1 (min (clampTo 1 24 f.k.toNat) (slotCount set)) != f.k.toNat,
          f.timeout != 0 && clampTo 1 60000 f.timeout.toNat != f.timeout.toNat,
          f.replyPresent == 1 && clampTo 0 240 f.replyMax.toNat != f.replyMax.toNat] := by
  have hflag {b : Byte} (h : b.toNat ≤ 1) : (b != 0) = (b == 1) := by
    have hcases : b = 0 ∨ b = 1 := by bv_omega
    rcases hcases with rfl | rfl <;> rfl
  simp only [operationMask, hflag hp, hflag hr, clampQuorum]

end

/-- The appends that reach one slot of a list of different slots. -/
theorem appended_requests {l : List SlotId} (hl : l.Nodup) (x : Slot) (i : SlotId) (r : SlotRequest) :
    ({ x with requests := x.requests ++ (l.filter (· = i)).map fun _ => r } : Slot) =
      if i ∈ l then { x with requests := x.requests ++ [r] } else x := by
  have hfilter : l.filter (· = i) = if i ∈ l then [i] else [] := by
    rw [List.filter_eq, hl.count]
    split <;> rfl
  rw [hfilter]
  split
  · rfl
  · simp

theorem operationCodes_ok (hsel : f.selector.toNat ≤ 1) (hpolicy : f.policyPresent.toNat ≤ 1)
    (hreply : f.replyPresent.toNat ≤ 1) (hcode : f.policyPresent = 1 → f.policy.toNat ≤ 2) : operationCodes f = true := by
  have hone : f.policyPresent.toNat = 1 → f.policy.toNat ≤ 2 := fun h => hcode (by bv_omega)
  rw [← Bool.not_eq_false, operationCodes_eq_false_iff]
  omega

/-- Settles O27: the request is resolved, and its entry is turned away or opens as the lemmas above have it. -/
theorem operationsAreAccepted : Obligations.OperationsAreAccepted := by
  intro tag f s source set policy timeout reply hopen hsel hpolicy hreply hcode htag hlength hgroup hset c kind work hc u k
    clampedT clampedR mask members queued replyLimit o
  set w : SourceValues := ⟨source, set, policy, timeout, reply⟩ with hw
  have hexec : exec c s = .next (s.acceptOperation tag kind f w work) := by
    have hcodes := operationCodes_ok hsel hpolicy hreply hcode
    have hsource : s.readSource f = .ok w := readSource_ok hsel hgroup hset
    rcases hc with ⟨payload, hpayload, rfl, rfl, rfl⟩ | ⟨image, himage, crc, hready, hcrc, rfl, rfl, rfl⟩
    · change execDirect tag (.shaped ⟨f, payload⟩) s = _
      simp only [execDirect, requestWith_shaped hopen, directWork_ok hpayload]
      exact congrArg _ (operate_passes hcodes htag hlength hsource)
    · change execPush tag (.shaped ⟨f, image⟩) s = _
      simp only [execPush, requestWith_shaped hopen, pushWork_ok himage hready hcrc]
      exact congrArg _ (operate_passes hcodes htag hlength hsource)
  have hu : drained s w.set = u := rfl
  have hk := drained_keeps s set
  have hconfigured : u.port.configured = true :=
    (congrArg Port.configured (hk .port (by decide))).trans (configured_of_intakeOpen hopen)
  have hnow : u.now = s.now := hk .time (by decide)
  have hmask : operationMask f w = mask := operationMask_eq hpolicy hreply
  have ho : u.newOperation tag f w work = o := by
    rw [newOperation_eq, operationPolicy_eq hpolicy hcode, operationReply_eq hreply, hnow]
    rfl
  have hopenSlots : o.openSlots = queued := ho ▸ openSlots_newOperation u
  refine ⟨_, hexec, ?_⟩
  split
  · next hroom =>
    rw [acceptOperation_noRoom s tag kind f w work (by rw [hu, ho]; exact hroom)]
    exact ⟨answer_receiptJoins hconfigured, answer_keeps _ _ _ _ _ _⟩
  · next hroom =>
    rw [acceptOperation_accepted s tag kind f w work (by rw [hu, ho]; exact hroom), hmask, hu, ho]
    have hopens : opens u _ o kind mask := accepted_opens hconfigured ((tags_drained s set).symm ▸ htag)
    have hreceipt := hopens.receipt
    rw [hopenSlots] at hreceipt
    refine ⟨hreceipt, hopens.keeps, hopens.bridgeOuts, hopens.notices, ?_⟩
    split
    · next v hd =>
      obtain ⟨hops, hslots, hgathers⟩ := hopens.decided v hd
      rw [hnow] at hops hgathers
      have helapsed : s.now - o.accepted = 0 := BitVec.sub_self s.now
      refine ⟨hops, hslots, hgathers.trans ?_⟩
      rw [← helapsed]
      rfl
    · next hd =>
      obtain ⟨hops, hgathers, hslots⟩ := hopens.undecided hd
      refine ⟨hops, hgathers, fun i => ?_⟩
      rw [hslots i, hopenSlots]
      exact appended_requests (queuedOf_nodup u set) (u.slot i) i _

end Sys2Proof.Machine.FanOut
end

section
/-! PROOF. What the soundness of the Image Table and of the image store rests on: the image that each slot's stream holds,
the numbers of holders, the windows, the jobs and the write in progress, and the operations that leave all of it as it is. -/

namespace Sys2Proof.Machine.ImageStore

open Tables

variable {s t u : State} {A : List Part} {i j : SlotId} {k l : ImageId}

/-! ### What a slot holds -/

theorem stream_modStream (x : Slot) (f : StreamRecord → StreamRecord) : (x.modStream f).stream = x.stream.map f := by
  unfold Slot.modStream Slot.stream
  cases hf : x.inFlight with
  | none => simp [hf]
  | some r => cases ht : r.transaction <;> simp [hf, ht]

@[simp] theorem modStream_state (x : Slot) (f : StreamRecord → StreamRecord) : (x.modStream f).state = x.state := by
  unfold Slot.modStream
  split
  · split <;> rfl
  · rfl

@[simp] theorem modStream_link (x : Slot) (f : StreamRecord → StreamRecord) : (x.modStream f).link = x.link := by
  unfold Slot.modStream
  split
  · split <;> rfl
  · rfl

/-- The image whose reference a slot's stream holds (R141). -/
def held (x : Slot) : Option ImageId := x.stream.bind fun r => if r.referenceHeld then some r.image else none

theorem holds_eq (x : Slot) (k : ImageId) : x.holds k = decide (held x = some k) := by
  unfold Slot.holds held
  cases x.stream with
  | none => rfl
  | some r => cases h : r.referenceHeld <;> simp [h, Bool.beq_eq_decide_eq]

theorem held_of_inFlight_none {x : Slot} (h : x.inFlight = none) : held x = none := by simp [held, Slot.stream, h]

theorem held_of_stream {x : Slot} {r : StreamRecord} (h : x.stream = some r) :
    held x = if r.referenceHeld then some r.image else none := by simp [held, h]

theorem held_modStream (x : Slot) {f : StreamRecord → StreamRecord} (himage : ∀ r, (f r).image = r.image)
    (hheld : ∀ r, (f r).referenceHeld = r.referenceHeld) : held (x.modStream f) = held x := by
  unfold held
  rw [stream_modStream]
  cases x.stream with
  | none => rfl
  | some r => simp [himage, hheld]

@[simp] theorem held_released (x : Slot) : held x.released = none := by
  unfold held Slot.released
  rw [stream_modStream]
  cases x.stream <;> rfl

/-- What the image store's soundness reads of a slot: its state, the image it holds, and the purpose of its exchange. -/
def grip (x : Slot) : SlotState × Option ImageId × Option ExchangePurpose :=
  (x.state, held x, x.link.exchange.map (·.purpose))

theorem state_of_grip {x y : Slot} (h : grip y = grip x) : y.state = x.state := congrArg Prod.fst h

theorem held_of_grip {x y : Slot} (h : grip y = grip x) : held y = held x := congrArg (·.2.1) h

theorem purpose_of_grip {x y : Slot} (h : grip y = grip x) :
    y.link.exchange.map (·.purpose) = x.link.exchange.map (·.purpose) := congrArg (·.2.2) h

theorem grip_modStream (x : Slot) {f : StreamRecord → StreamRecord} (himage : ∀ r, (f r).image = r.image)
    (hheld : ∀ r, (f r).referenceHeld = r.referenceHeld) : grip (x.modStream f) = grip x := by
  simp [grip, held_modStream x himage hheld]

theorem grip_of_sendsAs {x y : Slot} (h : x.sendsAs y) : grip y = grip x := by
  obtain ⟨tx, n, rfl⟩ := h
  rfl

@[simp] theorem grip_raiseFrame (x : Slot) (kind service : Byte) (p : List Byte) :
    grip (x.raiseFrame kind service p) = grip x := grip_of_sendsAs (x.raiseFrame_sendsAs kind service p)

@[simp] theorem grip_frameEnded (x : Slot) : grip x.frameEnded = grip x := grip_of_sendsAs x.frameEnded_sendsAs

@[simp] theorem grip_lineStep (x : Slot) : grip x.lineStep = grip x := grip_of_sendsAs x.lineStep_sendsAs

@[simp] theorem grip_transmit (x : Slot) : grip x.transmit = grip x := grip_of_sendsAs x.transmit_sendsAs

@[simp] theorem held_raiseFrame (x : Slot) (kind service : Byte) (p : List Byte) :
    held (x.raiseFrame kind service p) = held x := held_of_grip (grip_raiseFrame x kind service p)

theorem grip_of_sameButGrant {x y : Slot} (h : x.sameButGrant y) : grip y = grip x := by
  rcases h with rfl | ⟨-, rfl⟩
  · rfl
  · exact grip_modStream x (fun _ => rfl) fun _ => rfl

@[simp] theorem grip_askChunk (x : Slot) : grip x.askChunk = grip x :=
  grip_modStream x (fun r => by split <;> rfl) fun r => by split <;> rfl

@[simp] theorem grip_sendChunk (x : Slot) : grip x.sendChunk = grip x := by
  unfold Slot.sendChunk
  split
  · split
    · split
      · refine (grip_modStream _ ?_ ?_).trans (grip_raiseFrame x _ _ _) <;> exact fun _ => rfl
      · rfl
    · rfl
  · rfl

@[simp] theorem grip_extendWindow (x : Slot) (old new : Nat) : grip (x.extendWindow old new) = grip x := by
  unfold Slot.extendWindow
  split
  · next r hr =>
    split
    · have hstream : Slot.stream { x with
          inFlight := x.inFlight.map fun f =>
            { f with window := f.window.map fun w => { w with length := extendedWindow w.length r old new } } } =
          x.stream := by
        unfold Slot.stream
        cases x.inFlight <;> rfl
      simp only [grip, held, hstream]
    · rfl
  · rfl

/-- A slot that holds a reference streams, and the exchange it may have is no boot exchange (R43, R135, R141). -/
def gripSound (x : Slot) : Prop :=
  held x ≠ none → x.state = .streaming ∧ x.link.exchange.map (·.purpose) ≠ some .boot

theorem gripSound_of_held_none {x : Slot} (h : held x = none) : gripSound x := fun hn => absurd h hn

theorem gripSound_congr {x y : Slot} (h : grip y = grip x) (hx : gripSound x) : gripSound y := by
  unfold gripSound
  rw [held_of_grip h, state_of_grip h, purpose_of_grip h]
  exact hx

theorem held_of_state {x : Slot} (hx : gripSound x) (h : x.state ≠ .streaming) : held x = none := by
  by_contra hn
  exact h (hx hn).1

theorem held_of_boot {x : Slot} (hx : gripSound x) (h : x.link.exchange.map (·.purpose) = some .boot) : held x = none := by
  by_contra hn
  exact (hx hn).2 h

/-- The work of a slot in a sound state: what it holds, it streams. -/
theorem gripSound_of_workSound {x : Slot} (h : x.workSound) : gripSound x := by
  obtain ⟨-, -, hstream, hboot, -, -⟩ := h
  intro hheld
  cases hr : x.stream with
  | none => simp [held, hr] at hheld
  | some r =>
    have hrh : r.referenceHeld = true := by
      rw [held_of_stream hr] at hheld
      by_contra hf
      simp [hf] at hheld
    have hst : x.state = .streaming := by
      rcases hstream r hr with h | ⟨-, h⟩
      · exact h
      · rw [hrh] at h; cases h
    refine ⟨hst, fun hb => ?_⟩
    obtain ⟨e, he, hp⟩ := Option.map_eq_some_iff.mp hb
    rw [hboot e he hp] at hst
    cases hst

/-! ### The holders of an image -/

theorem length_filter_eq_sum {α : Type} (p : α → Bool) (l : List α) :
    (l.filter p).length = (l.map fun a => if p a then 1 else 0).sum := by
  induction l with
  | nil => rfl
  | cons a l ih => by_cases h : p a = true <;> simp [h, ih, Nat.add_comm]

theorem slots_toList (s : State) : s.slots.toList = (List.finRange 24).map s.slot := by
  refine List.ext_getElem (by simp) fun n h1 h2 => ?_
  simp [State.slot, Vector.get]

theorem holders_eq (s : State) (k : ImageId) : s.holders k = ∑ i : SlotId, if held (s.slot i) = some k then 1 else 0 := by
  rw [Fin.sum_univ_def, State.holders, length_filter_eq_sum, slots_toList, List.map_map]
  simp [holds_eq, Function.comp_def]

theorem holders_congr (h : ∀ i, held (t.slot i) = held (s.slot i)) (k : ImageId) : t.holders k = s.holders k := by
  simp only [holders_eq, h]

/-- What one slot holds is counted once. -/
theorem holders_one_slot (h : ∀ j, j ≠ i → held (t.slot j) = held (s.slot j)) (k : ImageId) :
    t.holders k + (if held (s.slot i) = some k then 1 else 0) =
      s.holders k + if held (t.slot i) = some k then 1 else 0 := by
  have hrest : ∑ j ∈ Finset.univ.erase i, (if held (t.slot j) = some k then 1 else 0) =
      ∑ j ∈ Finset.univ.erase i, if held (s.slot j) = some k then 1 else 0 :=
    Finset.sum_congr rfl fun j hj => by rw [h j (Finset.ne_of_mem_erase hj)]
  rw [holders_eq, holders_eq, ← Finset.add_sum_erase _ _ (Finset.mem_univ i),
    ← Finset.add_sum_erase Finset.univ (fun j => if held (s.slot j) = some k then 1 else 0) (Finset.mem_univ i), hrest]
  omega

theorem holders_pos (h : held (s.slot i) = some k) : s.holders k ≠ 0 := by
  rw [holders_eq, ← Finset.add_sum_erase _ _ (Finset.mem_univ i), if_pos h]
  omega

theorem holders_eq_zero (h : ∀ i, held (s.slot i) = none) (k : ImageId) : s.holders k = 0 := by
  rw [holders_eq]
  exact Finset.sum_eq_zero fun i _ => by rw [h i]; rfl

/-! ### What an operation may leave as it is -/

/-- What the soundness of the Image Table and of the store reads of the state. -/
structure View where
  images : Vector Image 8
  jobs : List Job
  engineBlocks : Nat
  store : List Host.Cell
  lostBits : List Nat
  port : Port
  grips : SlotId → SlotState × Option ImageId × Option ExchangePurpose

def view (s : State) : View :=
  ⟨s.images, s.jobs, s.engineBlocks, s.store, s.lostBits, s.port, fun i => grip (s.slot i)⟩

theorem grip_of_view (h : view t = view s) (i : SlotId) : grip (t.slot i) = grip (s.slot i) :=
  congrFun (congrArg View.grips h) i

theorem view_of_keepsBut (h : keepsBut A s t) (hg : ∀ i, grip (t.slot i) = grip (s.slot i))
    (himages : Part.images ∉ A := by decide) (hstore : Part.store ∉ A := by decide) (hjobs : Part.jobs ∉ A := by decide)
    (hport : Part.port ∉ A := by decide) : view t = view s := by
  obtain ⟨hs, hl⟩ := h .store hstore
  obtain ⟨hj, hb⟩ := h .jobs hjobs
  have hi : t.images = s.images := h .images himages
  have hp : t.port = s.port := h .port hport
  simp only [view, hi, hj, hb, hs, hl, hp, hg]

theorem view_of_slots (h : keepsBut A s t) (hslots : Part.slots ∉ A := by decide)
    (himages : Part.images ∉ A := by decide) (hstore : Part.store ∉ A := by decide) (hjobs : Part.jobs ∉ A := by decide)
    (hport : Part.port ∉ A := by decide) : view t = view s :=
  view_of_keepsBut h (fun i => by rw [State.slot_congr (h.slots hslots) i]) himages hstore hjobs hport

theorem view_foldl {α : Type} {f : State → α → State} (hf : ∀ s a, view (f s a) = view s) (l : List α) (s : State) :
    view (l.foldl f s) = view s := by
  induction l generalizing s with
  | nil => rfl
  | cons a l ih => exact (ih (f s a)).trans (hf s a)

theorem grip_modSlot (s : State) (i j : SlotId) {f : Slot → Slot} (h : grip (f (s.slot i)) = grip (s.slot i)) :
    grip ((s.modSlot i f).slot j) = grip (s.slot j) := by
  rw [State.slot_modSlot]
  split
  · next hj => rw [h, hj]
  · rfl

theorem view_modSlot (s : State) (i : SlotId) {f : Slot → Slot} (h : grip (f (s.slot i)) = grip (s.slot i)) :
    view (s.modSlot i f) = view s :=
  view_of_keepsBut (modSlot_keeps s i f) fun j => grip_modSlot s i j h

theorem view_modSlots (s : State) {f : SlotId → Slot → Slot} (h : ∀ i x, grip (f i x) = grip x) :
    view (s.modSlots f) = view s :=
  view_of_keepsBut (modSlots_keeps s f) fun i => by rw [slot_modSlots, h]

section
variable (s : State) (i : SlotId)

@[simp] theorem view_arbitrate : view s.arbitrate = view s := view_of_slots (arbitrate_keeps s)

@[simp] theorem view_answer (tag : Tag) (kind : Byte) (c : ResultCode) (detail : Half) (reply : Reply) :
    view (s.answer tag kind c detail reply) = view s := view_of_slots (answer_keeps s tag kind c detail reply)

@[simp] theorem view_sendBridgeOut (m : BridgeOut) : view (s.sendBridgeOut m) = view s :=
  view_of_slots (sendBridgeOut_keeps s m)

@[simp] theorem view_grant : view s.grant = view s :=
  view_of_keepsBut (grant_keeps s) fun i => grip_of_sameButGrant (slot_grant s i)

@[simp] theorem view_noteAlone : view s.noteAlone = view s := rfl

@[simp] theorem view_queueNotice : view (s.queueNotice i) = view s :=
  view_of_keepsBut (queueNotice_keeps s i) fun j => by
    rw [slot_queueNotice]
    split
    · next h => rw [h]; rfl
    · rfl

@[simp] theorem view_raise (e : EventKind) : view (s.raise i e) = view s :=
  view_of_keepsBut (raise_keeps s i e) fun j => by
    rw [slot_raise]
    split
    · next h => rw [h]; rfl
    · rfl

@[simp] theorem view_raiseAgentUp : view (s.raiseAgentUp i) = view s :=
  (view_raise _ i _).trans (view_modSlot s i rfl)

@[simp] theorem view_report (r : Report) : view (s.report i r) = view s := view_modSlot s i rfl

@[simp] theorem view_popReport : view (s.popReport i) = view s := view_modSlot s i rfl

@[simp] theorem view_ask (r : SlotRequest) : view (s.ask i r) = view s := view_modSlot s i rfl

@[simp] theorem view_modOp (tag : Tag) (f : Operation → Operation) : view (s.modOp tag f) = view s := rfl

@[simp] theorem view_complete (tag : Tag) (v : Verdict) : view (s.complete tag v) = view s :=
  view_of_slots (complete_keeps s tag v)

@[simp] theorem view_cancelMembers (tag : Tag) (c : CancelCause) : view (s.cancelMembers tag c) = view s := by
  unfold State.cancelMembers
  split
  · exact view_foldl (fun s i => view_ask s i _) _ _
  · rfl

@[simp] theorem view_evaluate (tag : Tag) : view (s.evaluate tag) = view s := by
  unfold State.evaluate
  split
  · split
    · split
      · exact (view_complete _ _ _).trans (view_cancelMembers s _ _)
      · rfl
    · rfl
  · rfl

@[simp] theorem view_endMember (tag : Tag) (admits : MemberStatus → Bool) (st : Operation → Member → MemberStatus) :
    view (s.endMember tag i admits st) = view s := by
  unfold State.endMember
  split
  · split
    · split
      · split
        · exact view_evaluate _ _
        · rfl
      · rfl
    · rfl
  · rfl

@[simp] theorem view_openOperation (o : Operation) : view (s.openOperation o) = view s := by
  unfold State.openOperation
  split
  · exact view_complete _ _ _
  · exact view_foldl (fun s i => view_ask s i _) _ _

@[simp] theorem view_keepNestCode : view (s.keepNestCode i) = view s := by
  unfold State.keepNestCode
  split
  · exact view_modSlot s i rfl
  · rfl

@[simp] theorem view_writeFault (c : FaultCause) (d : Half) : view (s.writeFault i c d) = view s := by
  unfold State.writeFault
  split
  · rfl
  · exact (view_raise _ i _).trans (view_modSlot s i rfl)

@[simp] theorem view_countGood : view (s.countGood i) = view s := view_modSlot s i rfl

theorem grip_pushBytes (bytes : List Byte) (x : Slot) : grip (bytes.foldl Slot.pushByte x) = grip x := by
  induction bytes generalizing x with
  | nil => rfl
  | cons b bytes ih =>
    rw [List.foldl_cons, ih]
    unfold Slot.pushByte
    split <;> rfl

@[simp] theorem view_appendText (bytes : List Byte) : view (s.appendText i bytes) = view s := by
  have h := view_modSlot s i (f := fun x => bytes.foldl Slot.pushByte x) (grip_pushBytes bytes _)
  unfold State.appendText
  dsimp only
  split
  · exact (view_raise _ i _).trans h
  · exact h

@[simp] theorem view_queueBridgeOut : view (s.queueBridgeOut i) = view s :=
  (view_sendBridgeOut _ _).trans (view_modSlot s i rfl)

@[simp] theorem view_buildBridgeOut (b : Bool) : view (s.buildBridgeOut i b) = view s := by
  unfold State.buildBridgeOut
  dsimp only
  split
  · split
    · exact view_queueBridgeOut s i
    · split
      · exact view_modSlot s i rfl
      · rfl
  · rfl

@[simp] theorem view_raisePlaced : view (s.raisePlaced i) = view s := by
  unfold State.raisePlaced
  split
  · exact view_raise s i _
  · rfl

@[simp] theorem view_setInterlock (bank : Bank) (x : Interlock) : view (s.setInterlock bank x) = view s :=
  view_of_slots (setInterlock_keeps s bank x)

@[simp] theorem view_tick : view s.tick = view s := by
  unfold State.tick
  split
  · rfl
  · refine view_modSlots _ fun i x => (grip_lineStep _).trans ?_
    split <;> rfl

@[simp] theorem view_noticeIfPending (enabled : BitVec 8) : view (s.noticeIfPending enabled i) = view s := by
  unfold State.noticeIfPending
  split
  · exact view_queueNotice s i
  · rfl

@[simp] theorem view_deliver (block : Nat) (failed : Bool) : view (s.deliver i block failed) = view s :=
  view_modSlot s i (grip_modStream _ (fun r => by split <;> rfl) fun r => by split <;> rfl)

end

end Sys2Proof.Machine.ImageStore
end

section
/-! PROOF. Sound states of the image store: what a change of one record, of the job list, of the write in progress and of the
bytes leaves of the soundness of the whole. -/

namespace Sys2Proof.Machine.ImageStore

open Tables

variable {s t u : State} {i j : SlotId} {k l : ImageId}

/-! ### The parts of soundness -/

/-- A window lies in the store at a multiple of its size, with its high mark within it (R120, R126). -/
def windowFits (x : Image) : Prop :=
  x.fields.base % x.fields.size.units = 0 ∧ x.fields.base + x.units ≤ Config.storeUnits ∧
    x.fields.highMark ≤ x.fields.size.bytes

/-- Two windows share no unit (R120). -/
def apart (x y : Image) : Prop :=
  x.units ≠ 0 → y.units ≠ 0 → x.fields.base + x.units ≤ y.fields.base ∨ y.fields.base + y.units ≤ x.fields.base

theorem apart_symm {x y : Image} (h : apart x y) : apart y x := fun hy hx => (h hx hy).symm

theorem windowsSound_iff (s : State) :
    s.windowsSound ↔ (∀ k, windowFits (s.image k)) ∧ ∀ k l, k ≠ l → apart (s.image k) (s.image l) := Iff.rfl

/-- A reference count, with the holders it stands for (R141). -/
def referenceSound (x : Image) (holders : Nat) : Prop :=
  x.fields.references = holders ∧ (holders ≠ 0 → x.state = .ready ∨ x.state = .damaged)

/-- The job list is that of the images, and the job at its head has done no more blocks than it has (R124). -/
def jobsListed (s : State) : Prop :=
  s.jobs.Nodup ∧ s.engineBlocks ≤ (s.jobs.head?.map s.jobBlocks).getD 0 ∧
    ∀ k, (Job.clear k ∈ s.jobs ↔ (s.image k).state = .clearing) ∧ (Job.verify k ∈ s.jobs ↔ (s.image k).state = .verifying)

/-- The write in progress, if there is one, has bytes to write within the window of its image (R126, R186). -/
def writeSound (s : State) : Prop :=
  ∀ tag k offset data discard, s.port.inProgress = some (.imageWrite tag k offset data discard) →
    data ≠ [] ∧ offset + data.length ≤ (s.image k).fields.size.bytes ∧
      ((s.image k).state = .loading ∨ (s.image k).state = .damaged) ∧ s.port.intakeHold = false

theorem jobsSound_iff (s : State) : s.jobsSound ↔ jobsListed s ∧ writeSound s := by
  simp only [State.jobsSound, jobsListed, writeSound, and_assoc]

/-- The Image Table and the store are sound, and every slot that holds a reference streams. -/
structure Sound (s : State) : Prop where
  windows : s.windowsSound
  references : s.referencesSound
  jobs : jobsListed s
  write : writeSound s
  store : s.storeSound
  grips : ∀ i, gripSound (s.slot i)

theorem Sound.images (h : Sound s) : s.imagesSound :=
  ⟨h.windows, h.references, (jobsSound_iff s).mpr ⟨h.jobs, h.write⟩, h.store⟩

theorem sound_of_imagesSound (hs : s.slotsSound) (h : s.imagesSound) : Sound s := by
  obtain ⟨hwindows, hreferences, hjobs, hstore⟩ := h
  obtain ⟨hlisted, hwrite⟩ := (jobsSound_iff s).mp hjobs
  obtain ⟨-, -, hwork⟩ := hs
  exact ⟨hwindows, hreferences, hlisted, hwrite, hstore, fun i => gripSound_of_workSound (hwork i)⟩

/-! ### Records that keep their window -/

/-- The state of a record and its window: all that soundness reads of it beside the reference count. -/
def shape (x : Image) : ImageState × Nat × SizeClass × Nat := (x.state, x.fields.base, x.fields.size, x.fields.highMark)

theorem shape_eq {x y : Image} (h : shape y = shape x) :
    y.state = x.state ∧ y.fields.base = x.fields.base ∧ y.fields.size = x.fields.size ∧
      y.fields.highMark = x.fields.highMark :=
  ⟨congrArg (·.1) h, congrArg (·.2.1) h, congrArg (·.2.2.1) h, congrArg (·.2.2.2) h⟩

theorem units_of_shape {x y : Image} (h : shape y = shape x) : y.units = x.units := by
  obtain ⟨hstate, -, hsize, -⟩ := shape_eq h
  simp only [Image.units, hstate, hsize]

theorem jobBlocks_of_shape (h : ∀ k, shape (t.image k) = shape (s.image k)) (job : Job) :
    t.jobBlocks job = s.jobBlocks job := by
  cases job with
  | clear k =>
    obtain ⟨-, -, hsize, -⟩ := shape_eq (h k)
    simp only [State.jobBlocks, hsize]
  | verify k =>
    obtain ⟨-, -, -, hmark⟩ := shape_eq (h k)
    simp only [State.jobBlocks, hmark]

theorem windowsSound_of_shape (h : ∀ k, shape (t.image k) = shape (s.image k)) (hs : s.windowsSound) :
    t.windowsSound := by
  rw [windowsSound_iff] at hs ⊢
  obtain ⟨hfits, hapart⟩ := hs
  refine ⟨fun k => ?_, fun k l hkl => ?_⟩
  · have hunits := units_of_shape (h k)
    obtain ⟨-, hbase, hsize, hmark⟩ := shape_eq (h k)
    have := hfits k
    rwa [windowFits, hbase, hsize, hmark, hunits]
  · obtain ⟨-, hbase, -, -⟩ := shape_eq (h k)
    obtain ⟨-, hbasel, -, -⟩ := shape_eq (h l)
    have := hapart k l hkl
    rwa [apart, hbase, hbasel, units_of_shape (h k), units_of_shape (h l)]

theorem jobsListed_of_shape (h : ∀ k, shape (t.image k) = shape (s.image k)) (hjobs : t.jobs = s.jobs)
    (hblocks : t.engineBlocks = s.engineBlocks) (hs : jobsListed s) : jobsListed t := by
  obtain ⟨hnodup, hle, hiff⟩ := hs
  have hsame : t.jobBlocks = s.jobBlocks := funext (jobBlocks_of_shape h)
  refine ⟨hjobs ▸ hnodup, by rw [hjobs, hblocks, hsame]; exact hle, fun k => ?_⟩
  rw [hjobs, (shape_eq (h k)).1]
  exact hiff k

theorem writeSound_of_shape (h : ∀ k, shape (t.image k) = shape (s.image k)) (hport : t.port = s.port)
    (hs : writeSound s) : writeSound t := by
  intro tag k offset data discard hp
  obtain ⟨hstate, -, hsize, -⟩ := shape_eq (h k)
  rw [hport] at hp ⊢
  rw [hstate, hsize]
  exact hs tag k offset data discard hp

/-- Records that keep their window, with reference counts that are still those of the holders. -/
theorem sound_of_shape (hs : Sound s) (h : ∀ k, shape (t.image k) = shape (s.image k)) (hjobs : t.jobs = s.jobs)
    (hblocks : t.engineBlocks = s.engineBlocks) (hport : t.port = s.port) (hstore : t.store = s.store)
    (hlost : t.lostBits = s.lostBits) (href : t.referencesSound) (hgrips : ∀ i, gripSound (t.slot i)) : Sound t where
  windows := windowsSound_of_shape h hs.windows
  references := href
  jobs := jobsListed_of_shape h hjobs hblocks hs.jobs
  write := writeSound_of_shape h hport hs.write
  store := by
    unfold State.storeSound
    rw [hstore, hlost]
    exact hs.store
  grips := hgrips

theorem sound_congr (h : view t = view s) (hs : Sound s) : Sound t := by
  have himage (k : ImageId) : t.image k = s.image k := congrArg (·.get k) (congrArg View.images h)
  refine sound_of_shape hs (fun k => by rw [himage]) (congrArg View.jobs h) (congrArg View.engineBlocks h)
    (congrArg View.port h) (congrArg View.store h) (congrArg View.lostBits h) (fun k => ?_)
    fun i => gripSound_congr (grip_of_view h i) (hs.grips i)
  rw [himage, holders_congr fun i => held_of_grip (grip_of_view h i)]
  exact hs.references k

/-- A slot that keeps what it holds. -/
theorem modSlot_sound (hs : Sound s) {f : Slot → Slot} (hheld : held (f (s.slot i)) = held (s.slot i))
    (hgrip : gripSound (f (s.slot i))) : Sound (s.modSlot i f) := by
  have hslot (j : SlotId) : held ((s.modSlot i f).slot j) = held (s.slot j) := by
    rw [State.slot_modSlot]
    split
    · next hj => rw [hheld, hj]
    · rfl
  refine sound_of_shape hs (fun _ => rfl) rfl rfl rfl rfl rfl (fun k => ?_) fun j => ?_
  · rw [holders_congr hslot]
    exact hs.references k
  · rw [State.slot_modSlot]
    split
    · exact hgrip
    · exact hs.grips j

/-- A slot that holds no image may change as it likes, as long as it takes none. -/
theorem modSlot_sound_of_held_none (hs : Sound s) {f : Slot → Slot} (hbefore : held (s.slot i) = none)
    (hafter : held (f (s.slot i)) = none) : Sound (s.modSlot i f) :=
  modSlot_sound hs (hafter.trans hbefore.symm) (gripSound_of_held_none hafter)

theorem sound_foldl {α : Type} {f : State → α → State} (hf : ∀ s a, Sound s → Sound (f s a)) (l : List α) (hs : Sound s) :
    Sound (l.foldl f s) := by
  induction l generalizing s with
  | nil => exact hs
  | cons a l ih => exact ih (hf s a hs)

/-! ### References -/

/-- One slot's hold and one image's count change together (R141). -/
theorem reference_sound (hs : Sound s) (hshape : ∀ l, shape (t.image l) = shape (s.image l)) (hjobs : t.jobs = s.jobs)
    (hblocks : t.engineBlocks = s.engineBlocks) (hport : t.port = s.port) (hstore : t.store = s.store)
    (hlost : t.lostBits = s.lostBits) (hother : ∀ j, j ≠ i → grip (t.slot j) = grip (s.slot j))
    (hgrip : gripSound (t.slot i))
    (hcount : ∀ l, (t.image l).fields.references + (if held (s.slot i) = some l then 1 else 0) =
      (s.image l).fields.references + if held (t.slot i) = some l then 1 else 0)
    (hready : ∀ l, held (t.slot i) = some l → (s.image l).state = .ready ∨ (s.image l).state = .damaged) : Sound t := by
  refine sound_of_shape hs hshape hjobs hblocks hport hstore hlost (fun l => ?_) fun j => ?_
  · obtain ⟨hrefs, hstate⟩ := hs.references l
    have hholders := holders_one_slot (fun j hj => held_of_grip (hother j hj)) l
    have hc := hcount l
    rw [hrefs] at hc
    refine ⟨by omega, fun hne => ?_⟩
    rw [(shape_eq (hshape l)).1]
    by_cases hl : held (t.slot i) = some l
    · exact hready l hl
    · rw [if_neg hl] at hholders
      exact hstate (by omega)
  · by_cases hj : j = i
    · exact hj ▸ hgrip
    · exact gripSound_congr (hother j hj) (hs.grips j)

theorem shape_modImage {f : Image → Image} (h : shape (f (s.image k)) = shape (s.image k)) (l : ImageId) :
    shape ((s.modImage k f).image l) = shape (s.image l) := by
  rw [State.image_modImage]
  split
  · next hl => rw [h, hl]
  · rfl

theorem held_releaseReference (s : State) (i : SlotId) : held ((s.releaseReference i).slot i) = none := by
  rw [slot_releaseReference, if_pos rfl]
  exact held_released _

theorem slot_releaseReference_ne (s : State) {i j : SlotId} (h : j ≠ i) : (s.releaseReference i).slot j = s.slot j := by
  rw [slot_releaseReference, if_neg h]

/-- A stream that releases its reference takes one off the image's count, and is a holder no longer (R141). -/
theorem releaseReference_sound (hs : Sound s) (i : SlotId) : Sound (s.releaseReference i) := by
  have hother (j : SlotId) (hj : j ≠ i) : grip ((s.releaseReference i).slot j) = grip (s.slot j) := by
    rw [slot_releaseReference_ne s hj]
  have hheld := held_releaseReference s i
  have hk := releaseReference_keeps s i
  obtain ⟨hstore, hlost⟩ := hk .store (by decide)
  obtain ⟨hjobs, hblocks⟩ := hk .jobs (by decide)
  have himages : (∀ l, shape ((s.releaseReference i).image l) = shape (s.image l)) ∧
      ∀ l, ((s.releaseReference i).image l).fields.references + (if held (s.slot i) = some l then 1 else 0) =
        (s.image l).fields.references := by
    unfold State.releaseReference
    cases hr : (s.slot i).stream with
    | none => simp [held, hr]
    | some r =>
      rw [held_of_stream hr]
      cases hrh : r.referenceHeld with
      | false => simp [hrh]
      | true =>
        have hpos := holders_pos (s := s) (i := i) (k := r.image) (by rw [held_of_stream hr, hrh]; rfl)
        have hcount := (hs.references r.image).1
        simp only [hrh, if_true, State.image_modSlot, Option.some.injEq]
        refine ⟨fun l => shape_modImage rfl l, fun l => ?_⟩
        rw [State.image_modImage]
        by_cases hl : l = r.image
        · rw [if_pos hl, if_pos hl.symm, hl]
          change (s.image r.image).fields.references - 1 + 1 = _
          omega
        · rw [if_neg hl, if_neg (Ne.symm hl)]
          rfl
  refine reference_sound hs himages.1 hjobs hblocks (hk .port (by decide)) hstore hlost hother
    (gripSound_of_held_none hheld) (fun l => ?_) fun l hl => ?_
  · rw [hheld]
    exact himages.2 l
  · rw [hheld] at hl
    cases hl

/-! ### One record changes -/

/-- One record of the Image Table has become `y`, and every other one is the same. -/
def oneRecord (s t : State) (k : ImageId) (y : Image) : Prop := ∀ l, t.image l = if l = k then y else s.image l

theorem oneRecord_modImage (s : State) (k : ImageId) (f : Image → Image) :
    oneRecord s (s.modImage k f) k (f (s.image k)) := fun l => State.image_modImage s k l f

/-- An image in this state has no job of the engine (R124). -/
def noJob (x : ImageState) : Prop := x ≠ .clearing ∧ x ≠ .verifying

/-- The image a job is of. -/
def jobImage : Job → ImageId
  | .clear k => k
  | .verify k => k

/-- The state of an image that has the job. -/
def jobState : Job → ImageState
  | .clear _ => .clearing
  | .verify _ => .verifying

theorem jobState_ne {x : ImageState} (h : noJob x) (job : Job) : x ≠ jobState job := by
  cases job with
  | clear => exact h.1
  | verify => exact h.2

theorem jobBlocks_congr {job : Job} (h : t.image (jobImage job) = s.image (jobImage job)) :
    t.jobBlocks job = s.jobBlocks job := by
  cases job with
  | clear k => exact congrArg (fun x : Image => x.fields.size.bytes / Config.blockBytes) h
  | verify k => exact congrArg (fun x : Image => ceilDiv x.fields.highMark Config.blockBytes) h

theorem jobsListed_iff (s : State) :
    jobsListed s ↔
      s.jobs.Nodup ∧ s.engineBlocks ≤ (s.jobs.head?.map s.jobBlocks).getD 0 ∧
        ∀ job, job ∈ s.jobs ↔ (s.image (jobImage job)).state = jobState job := by
  refine and_congr_right fun _ => and_congr_right fun _ => ⟨fun h job => ?_, fun h k => ⟨h (.clear k), h (.verify k)⟩⟩
  cases job with
  | clear k => exact (h k).1
  | verify k => exact (h k).2

section
variable {y : Image} {job : Job} {rest : List Job}

/-- A record without a job stays without one. -/
theorem jobsListed_same (hs : jobsListed s) (himage : oneRecord s t k y) (hbefore : noJob (s.image k).state)
    (hafter : noJob y.state) (hjobs : t.jobs = s.jobs) (hblocks : t.engineBlocks = s.engineBlocks) : jobsListed t := by
  rw [jobsListed_iff] at hs ⊢
  obtain ⟨hnodup, hle, hiff⟩ := hs
  rw [hjobs, hblocks]
  refine ⟨hnodup, ?_, fun job => ?_⟩
  · cases hhead : s.jobs with
    | nil => simpa [hhead] using hle
    | cons job rest =>
      have hne : jobImage job ≠ k := fun h =>
        jobState_ne hbefore job (h ▸ (hiff job).mp (by rw [hhead]; exact List.mem_cons_self))
      have hsame : t.jobBlocks job = s.jobBlocks job := jobBlocks_congr (by rw [himage, if_neg hne])
      simpa [hhead, hsame] using hle
  · rw [hiff, himage]
    split
    · next h => simp only [h, jobState_ne hbefore job, jobState_ne hafter job]
    · rfl

/-- A job joins the list, and its image the state of that job (R123, R128). -/
theorem jobsListed_append (hs : jobsListed s) (himage : oneRecord s t (jobImage job) y)
    (hbefore : noJob (s.image (jobImage job)).state) (hafter : y.state = jobState job) (hjobs : t.jobs = s.jobs ++ [job])
    (hblocks : t.engineBlocks = s.engineBlocks) : jobsListed t := by
  rw [jobsListed_iff] at hs ⊢
  obtain ⟨hnodup, hle, hiff⟩ := hs
  have hnew (q : Job) (hq : q ∈ s.jobs) : jobImage q ≠ jobImage job := fun h =>
    jobState_ne hbefore q (h ▸ (hiff q).mp hq)
  rw [hjobs, hblocks]
  refine ⟨?_, ?_, fun q => ?_⟩
  · rw [List.nodup_append_comm, List.singleton_append, List.nodup_cons]
    exact ⟨fun h => hnew job h rfl, hnodup⟩
  · cases hhead : s.jobs with
    | nil => rw [hhead] at hle; exact hle.trans (Nat.zero_le _)
    | cons q rest =>
      have hsame : t.jobBlocks q = s.jobBlocks q :=
        jobBlocks_congr (by rw [himage, if_neg (hnew q (by rw [hhead]; exact List.mem_cons_self))])
      simpa [hhead, hsame] using hle
  · rw [List.mem_append, List.mem_singleton, hiff, himage]
    split
    · next h =>
      rw [h, hafter]
      simp only [jobState_ne hbefore q, false_or]
      cases q <;> cases job <;> simp_all [jobImage, jobState]
    · next h => exact or_iff_left fun hq => h (hq ▸ rfl)

/-- The job at the head leaves the list, and its image the state of that job (R125, R129). -/
theorem jobsListed_end (hs : jobsListed s) (hhead : s.jobs = job :: rest) (himage : oneRecord s t (jobImage job) y)
    (hafter : noJob y.state) (hjobs : t.jobs = rest) (hblocks : t.engineBlocks = 0) : jobsListed t := by
  rw [jobsListed_iff] at hs ⊢
  obtain ⟨hnodup, -, hiff⟩ := hs
  rw [hhead, List.nodup_cons] at hnodup
  obtain ⟨hnot, hnodup⟩ := hnodup
  have hstate : (s.image (jobImage job)).state = jobState job := (hiff job).mp (by rw [hhead]; exact List.mem_cons_self)
  rw [hjobs, hblocks]
  refine ⟨hnodup, Nat.zero_le _, fun q => ?_⟩
  have hq := hiff q
  rw [hhead, List.mem_cons] at hq
  rw [himage]
  split
  · next h =>
    refine iff_of_false (fun hmem => hnot ?_) (jobState_ne hafter q)
    have hsame : jobState job = jobState q := by rw [← hstate, ← h]; exact hq.mp (.inr hmem)
    have : q = job := by cases q <;> cases job <;> simp_all [jobImage, jobState]
    exact this ▸ hmem
  · next h => rw [← hq]; exact (or_iff_right fun e : q = job => h (by rw [e])).symm

/-- A record becomes another one with a window of its own and the same holders. -/
theorem record_sound (hs : Sound s) (himage : oneRecord s t k y) (hfits : windowFits y)
    (hapart : ∀ l, l ≠ k → apart y (s.image l)) (href : referenceSound y (s.holders k)) (hjobs : jobsListed t)
    (hport : t.port = s.port)
    (hwrite : ∀ tag offset data discard, s.port.inProgress = some (.imageWrite tag k offset data discard) →
      offset + data.length ≤ y.fields.size.bytes ∧ (y.state = .loading ∨ y.state = .damaged))
    (hstore : t.storeSound) (hgrips : ∀ i, grip (t.slot i) = grip (s.slot i)) : Sound t where
  windows := by
    obtain ⟨hfit, haparts⟩ := (windowsSound_iff s).mp hs.windows
    refine (windowsSound_iff t).mpr ⟨fun l => ?_, fun l m hlm => ?_⟩
    · rw [himage]
      split
      · exact hfits
      · exact hfit l
    · rw [himage, himage]
      by_cases hl : l = k
      · have hm : m ≠ k := fun h => hlm (hl.trans h.symm)
        rw [if_pos hl, if_neg hm]
        exact hapart m hm
      · rw [if_neg hl]
        split
        · exact apart_symm (hapart l hl)
        · exact haparts l m hlm
  references l := by
    rw [himage, holders_congr fun i => held_of_grip (hgrips i)]
    split
    · next h => exact h ▸ href
    · exact hs.references l
  jobs := hjobs
  write := by
    intro tag l offset data discard hp
    rw [hport] at hp ⊢
    obtain ⟨hdata, hfit, hstate, hhold⟩ := hs.write tag l offset data discard hp
    rw [himage]
    split
    · next h =>
      obtain ⟨hfit, hstate⟩ := hwrite tag offset data discard (h ▸ hp)
      exact ⟨hdata, hfit, hstate, hhold⟩
    · exact ⟨hdata, hfit, hstate, hhold⟩
  store := hstore
  grips i := gripSound_congr (hgrips i) (hs.grips i)

end

/-- The windows of two records are one, their sizes and high marks aside. -/
theorem apart_of_window {x y z : Image} (hbase : y.fields.base = x.fields.base) (hunits : y.units = x.units)
    (h : apart x z) : apart y z := by
  unfold apart
  rw [hbase, hunits]
  exact h

theorem units_of_not_free {x : Image} (h : x.state ≠ .free) : x.units = x.fields.size.units := if_neg h

/-! ### The write in progress and the bytes -/

theorem withPort_sound (hs : Sound s) {p : Port}
    (hp : ∀ tag k offset data discard, p.inProgress = some (.imageWrite tag k offset data discard) →
      data ≠ [] ∧ offset + data.length ≤ (s.image k).fields.size.bytes ∧
        ((s.image k).state = .loading ∨ (s.image k).state = .damaged) ∧ p.intakeHold = false) :
    Sound { s with port := p } :=
  ⟨hs.windows, hs.references, hs.jobs, hp, hs.store, hs.grips⟩

/-- With no write in progress. -/
theorem withPort_sound_of_no_write (hs : Sound s) {p : Port}
    (hp : ∀ tag k offset data discard, p.inProgress ≠ some (.imageWrite tag k offset data discard)) :
    Sound { s with port := p } :=
  withPort_sound hs fun tag k offset data discard h => absurd h (hp tag k offset data discard)

theorem withStore_sound (hs : Sound s) {m : List Host.Cell} {l : List Nat} (hm : Memory.wf m = true)
    (hl : Memory.codesWf l = true) : Sound { s with store := m, lostBits := l } :=
  ⟨hs.windows, hs.references, hs.jobs, hs.write, ⟨hm, hl⟩, hs.grips⟩

/-- Only an image in READY or DAMAGED is held. -/
theorem holders_eq_zero_of_state (hs : Sound s) (h : (s.image k).state ≠ .ready) (hd : (s.image k).state ≠ .damaged) :
    s.holders k = 0 := by
  by_contra hne
  rcases (hs.references k).2 hne with hr | hr
  · exact h hr
  · exact hd hr

end Sys2Proof.Machine.ImageStore
end

section
/-! PROOF. The slot engine's operations keep the image store sound: a slot takes a reference where a stream of a READY image
starts, and gives it back before it leaves STREAMING (R136, R141). -/

namespace Sys2Proof.Machine.ImageStore

open Tables

variable {s t u : State} {i j : SlotId} {k l : ImageId}

/-! ### How a slot stops -/

theorem held_dropInFlight (s : State) (i : SlotId) (c : DropCause) : held ((s.dropInFlight i c).slot i) = none := by
  rw [slot_dropInFlight, if_pos rfl]
  exact held_of_inFlight_none rfl

theorem dropInFlight_sound (hs : Sound s) (i : SlotId) (c : DropCause) : Sound (s.dropInFlight i c) :=
  modSlot_sound_of_held_none (releaseReference_sound hs i) (held_releaseReference s i) (held_of_inFlight_none rfl)

theorem held_dropAll (s : State) (i : SlotId) (c : DropCause) : held ((s.dropAll i c).slot i) = none := by
  rw [slot_dropAll, if_pos rfl]
  exact held_of_inFlight_none rfl

theorem dropAll_sound (hs : Sound s) (i : SlotId) (c : DropCause) : Sound (s.dropAll i c) :=
  modSlot_sound_of_held_none (dropInFlight_sound hs i c) (held_dropInFlight s i c) (held_dropInFlight s i c)

theorem openBridgeOn_sound (hs : Sound s) (h : held (s.slot i) = none) (idle : Option Nat) :
    Sound (s.openBridgeOn i idle) := by
  refine modSlot_sound_of_held_none hs h (.trans ?_ h)
  exact held_raiseFrame { (s.slot i).hunt with ring := [], wrapped := false } kindBridgeEnter 0 []

theorem answer_sound (hs : Sound s) (tag : Tag) (kind : Byte) (c : ResultCode) (detail : Half) (reply : Reply) :
    Sound (s.answer tag kind c detail reply) := sound_congr (view_answer s tag kind c detail reply) hs

theorem resolveDeferred_sound (hs : Sound s) (i : SlotId) : Sound (s.resolveDeferred i) := by
  unfold State.resolveDeferred
  split
  · have hport : Sound { s with port := { s.port with inProgress := none } } :=
      withPort_sound_of_no_write hs fun _ _ _ _ _ h => by cases h
    split
    · dsimp only
      split
      · next hready =>
        have hheld := held_of_state (hs.grips i) (by rw [hready]; exact SlotState.noConfusion)
        exact answer_sound (openBridgeOn_sound hport hheld _) _ _ _ _ _
      · exact answer_sound hport _ _ _ _ _
    · exact hs
  · exact hs

theorem stopSlot_sound (hs : Sound s) (i : SlotId) (c : DropCause) (dest : SlotState) : Sound (s.stopSlot i c dest) :=
  resolveDeferred_sound (modSlot_sound_of_held_none (dropAll_sound hs i c) (held_dropAll s i c) (held_dropAll s i c)) i

theorem enterFault_sound (hs : Sound s) (i : SlotId) (c : FaultCause) (d : Half) : Sound (s.enterFault i c d) :=
  sound_congr ((view_writeFault _ i c d).trans (view_modSlot _ i rfl)) (stopSlot_sound hs i .slotFault .fault)

theorem enterInhibited_sound (hs : Sound s) (i : SlotId) (c : DropCause) : Sound (s.enterInhibited i c) :=
  sound_congr (view_raise _ i _) (stopSlot_sound hs i c .inhibited)

/-! ### Power-up and recovery -/

theorem enterPowering_sound (hs : Sound s) (h : held (s.slot i) = none) : Sound (s.enterPowering i) :=
  modSlot_sound_of_held_none hs h h

theorem enterBooting_sound (hs : Sound s) (h : held (s.slot i) = none) : Sound (s.enterBooting i) :=
  modSlot_sound_of_held_none hs h h

theorem enterRecovering_sound (hs : Sound s) (i : SlotId) (c : RestartCause) : Sound (s.enterRecovering i c) :=
  sound_congr (view_raise _ i _)
    (modSlot_sound_of_held_none (releaseReference_sound hs i) (held_releaseReference s i) (held_of_inFlight_none rfl))

theorem recoveryDecision_sound (hs : Sound s) (i : SlotId) (c : FaultCause) (d : Half) :
    Sound (s.recoveryDecision i c d) := by
  unfold State.recoveryDecision
  split
  · exact resolveDeferred_sound (enterRecovering_sound (sound_congr (view_modSlot s i rfl) hs) i .part) i
  · exact enterFault_sound hs i c d

/-- A seated handset is admitted to a slot that holds nothing (R4). -/
theorem admitSeated_sound (hs : Sound s) (h : held (s.slot i) = none) : Sound (s.admitSeated i) := by
  have hkept : Sound (s.keepNestCode i) := sound_congr (view_keepNestCode s i) hs
  have hheld : held ((s.keepNestCode i).slot i) = none := (held_of_grip (grip_of_view (view_keepNestCode s i) i)).trans h
  unfold State.admitSeated
  dsimp only
  split
  · exact sound_congr (view_writeFault _ i _ _) (modSlot_sound_of_held_none hkept hheld hheld)
  · split
    · refine enterPowering_sound (modSlot_sound_of_held_none hkept hheld hheld) ?_
      rw [State.slot_modSlot_same]
      exact hheld
    · exact modSlot_sound_of_held_none hkept hheld hheld

theorem attachVacant_sound (hs : Sound s) (h : held (s.slot i) = none) : Sound (s.attachVacant i) := by
  unfold State.attachVacant
  split
  · exact modSlot_sound_of_held_none hs h h
  · exact admitSeated_sound hs h

theorem leaveInhibited_sound (hs : Sound s) (h : held (s.slot i) = none) : Sound (s.leaveInhibited i) := by
  unfold State.leaveInhibited
  split
  · exact modSlot_sound_of_held_none hs h h
  · split
    · exact admitSeated_sound hs h
    · exact modSlot_sound_of_held_none hs h h

/-- An ATTACH of a VACANT slot, after its event has been raised. -/
theorem raiseAttach_sound (hs : Sound s) (i : SlotId) :
    Sound (if (s.slot i).state = .vacant then (s.raise i .attach).attachVacant i else s.raise i .attach) := by
  have hraised : Sound (s.raise i .attach) := sound_congr (view_raise s i _) hs
  split
  · next hvacant =>
    refine attachVacant_sound hraised ((held_of_grip (grip_of_view (view_raise s i _) i)).trans ?_)
    exact held_of_state (hs.grips i) (by rw [hvacant]; exact SlotState.noConfusion)
  · exact hraised

theorem evaluatePresence_sound (hs : Sound s) (i : SlotId) : Sound (s.evaluatePresence i) := by
  unfold State.evaluatePresence
  dsimp only
  split
  · exact raiseAttach_sound hs i
  · exact hs

theorem placeSlots_sound (hs : Sound s) : Sound s.placeSlots :=
  sound_foldl (fun _ i h => evaluatePresence_sound h i) _ (sound_congr (view_foldl view_raisePlaced _ s) hs)

theorem leaveBridge_sound (hs : Sound s) (h : (s.slot i).state = .bridge) : Sound (s.leaveBridge i) :=
  have hheld := held_of_state (hs.grips i) (by rw [h]; exact SlotState.noConfusion)
  modSlot_sound_of_held_none hs hheld hheld

/-! ### The start of a member -/

/-- A step-down exchange may start in any slot (R44). -/
theorem stepDown_sound (hs : Sound s) (i : SlotId) (n : Nat) : Sound (s.startExchange i n .stepDown) := by
  refine modSlot_sound hs (held_raiseFrame _ _ _ _) fun hheld => ?_
  rw [held_raiseFrame] at hheld
  rw [state_of_grip (grip_raiseFrame _ _ _ _), purpose_of_grip (grip_raiseFrame _ _ _ _)]
  exact ⟨(hs.grips i hheld).1, by simp⟩

/-- Any exchange may start in a slot that holds nothing. -/
theorem startExchange_sound (hs : Sound s) (h : held (s.slot i) = none) (n : Nat) (p : ExchangePurpose) :
    Sound (s.startExchange i n p) :=
  modSlot_sound_of_held_none hs h ((held_raiseFrame _ _ _ _).trans h)

theorem held_aborted (x : Slot) : held { x with inFlight := x.inFlight.map InFlight.aborted } = held x := by
  unfold held Slot.stream
  cases x.inFlight with
  | none => rfl
  | some f => cases h : f.transaction <;> simp [InFlight.aborted, h]

theorem enterAborting_sound (hs : Sound s) (i : SlotId) : Sound (s.enterAborting i) := by
  have hheld := held_releaseReference s i
  refine modSlot_sound_of_held_none (releaseReference_sound hs i) hheld ((held_raiseFrame _ _ _ _).trans ?_)
  exact (held_aborted _).trans hheld

/-- A slot that held nothing takes a reference to a READY image, whose count rises by one (R136, R141). -/
theorem takeReference_sound (hs : Sound s) (hbefore : held (s.slot i) = none) (hready : (s.image k).state = .ready)
    (ht : keepsBut [.slots] s t) (hother : ∀ j, j ≠ i → grip (t.slot j) = grip (s.slot j))
    (hgrip : grip (t.slot i) = (.streaming, some k, none)) :
    Sound (t.modImage k fun y => { y with fields := { y.fields with references := y.fields.references + 1 } }) := by
  have himage (l : ImageId) : t.image l = s.image l := congrArg (·.get l) (ht .images (by decide))
  have hheld : held (t.slot i) = some k := congrArg (·.2.1) hgrip
  obtain ⟨hstore, hlost⟩ := ht .store (by decide)
  obtain ⟨hjobs, hblocks⟩ := ht .jobs (by decide)
  refine reference_sound hs (fun l => ?_) hjobs hblocks (ht .port (by decide)) hstore hlost hother (fun _ => ?_)
    (fun l => ?_) fun l hl => ?_
  · rw [shape_modImage rfl, himage]
  · have hstate : (t.slot i).state = .streaming := congrArg (·.1) hgrip
    have hpurpose : (t.slot i).link.exchange.map (·.purpose) = none := congrArg (·.2.2) hgrip
    exact ⟨hstate, by rw [State.slot_modImage, hpurpose]; simp⟩
  · rw [State.image_modImage, State.slot_modImage, hheld, hbefore]
    by_cases hl : l = k
    · subst hl
      simp [himage]
    · simp [hl, Ne.symm hl, himage]
  · rw [State.slot_modImage, hheld] at hl
    rw [← Option.some.inj hl]
    exact .inl hready

/-- A member starts in a slot that holds nothing, with no exchange: a stream of the image as accepted takes a reference,
another stream is stopped at once (R49, R136, R137). -/
theorem startMember_sound (hs : Sound s) (hheld : held (s.slot i) = none) (hex : (s.slot i).link.exchange = none)
    (e : QueueEntry) : Sound (s.startMember i e) := by
  unfold State.startMember
  dsimp only
  split
  · refine sound_congr (view_report _ i _) (modSlot_sound_of_held_none hs hheld ((held_raiseFrame _ _ _ _).trans rfl))
  · next k generation length crc hwork =>
    generalize hw : memberWindow _ _ _ = window
    have hgrip (accepted : Bool) (x : Slot) (hx : x.link.exchange = none) (service : Byte) :
        grip (Slot.raiseFrame
          { x with
            state := .streaming
            inFlight :=
              some ⟨some e.tag, some ⟨s.now, window⟩,
                .stream (StreamRecord.begin k generation length crc accepted)⟩ }
          kindStreamOpen service (streamOpenPayload length crc)) =
          (.streaming, if accepted then some k else none, none) := by
      rw [grip_raiseFrame]
      simp [grip, hx, held, Slot.stream, StreamRecord.begin]
    split
    · next haccepted =>
      simp only [Bool.and_eq_true, beq_iff_eq] at haccepted
      refine takeReference_sound hs hheld haccepted.1
        ((modSlot_keeps s i _).trans (report_keeps _ i _)) (fun j hj => ?_) ?_
      · rw [grip_of_view (view_report _ i _), State.slot_modSlot_ne _ _ hj]
      · rw [grip_of_view (view_report _ i _), State.slot_modSlot_same, hgrip _ _ hex]
        simp [haccepted]
    · next haccepted =>
      refine enterAborting_sound (sound_congr ((view_report _ i _).trans (view_report _ i _)) ?_) i
      rw [Bool.not_eq_true] at haccepted
      exact modSlot_sound_of_held_none hs hheld ((congrArg (·.2.1) (hgrip _ _ hex _)).trans (by simp [haccepted]))

end Sys2Proof.Machine.ImageStore
end

section
/-! PROOF. A slot engine's own work, the frames it receives and sends, and the requests it takes keep the image store sound. -/

namespace Sys2Proof.Machine.ImageStore

open Tables

variable {s t u : State} {i j : SlotId} {k l : ImageId}

/-! ### A slot engine's own work -/

theorem readyWork_sound (hs : Sound s) (h : (s.slot i).state = .ready) : Sound (s.readyWork i) := by
  have hheld := held_of_state (hs.grips i) (by rw [h]; exact SlotState.noConfusion)
  unfold State.readyWork
  dsimp only
  split
  · exact hs
  · next hex =>
    rw [Bool.not_eq_true, Option.isSome_eq_false_iff, Option.isNone_iff_eq_none] at hex
    split
    · exact stepDown_sound hs i _
    · split
      · exact hs
      · refine startMember_sound (sound_congr (view_modSlot s i rfl) hs) ?_ ?_ _ <;> rw [State.slot_modSlot_same]
        · exact hheld
        · exact hex

theorem streamWork_sound (hs : Sound s) (i : SlotId) : Sound (s.streamWork i) := by
  unfold State.streamWork
  dsimp only
  split
  · exact hs
  · split
    · exact stepDown_sound hs i _
    · exact sound_congr (view_modSlot s.noteAlone i ((grip_askChunk _).trans (grip_sendChunk _)))
        (sound_congr (view_noteAlone s) hs)

theorem grant_sound (hs : Sound s) : Sound s.grant := sound_congr (view_grant s) hs

theorem slotWork_sound (hs : Sound s) (i : SlotId) : Sound (s.slotWork i) := by
  unfold State.slotWork
  refine grant_sound ?_
  split
  · next h => exact readyWork_sound hs h
  · exact streamWork_sound hs i
  · exact hs

theorem becomeReady_sound (hs : Sound s) (h : held (s.slot i) = none) : Sound (s.becomeReady i) :=
  slotWork_sound (sound_congr (view_raiseAgentUp _ i) (modSlot_sound_of_held_none hs h h)) i

theorem bootExchange_sound (hs : Sound s) (h : held (s.slot i) = none) : Sound (s.bootExchange i) := by
  unfold State.bootExchange
  split
  · exact becomeReady_sound hs h
  · exact startExchange_sound hs h _ _

theorem loseScore_sound (hs : Sound s) (i : SlotId) (n : Nat) : Sound (s.loseScore i n) := by
  have hscore : Sound (s.modSlot i fun x => x.setScore (x.link.score - n)) := sound_congr (view_modSlot s i rfl) hs
  unfold State.loseScore
  dsimp only
  split
  · exact enterFault_sound hscore i _ _
  · exact slotWork_sound hscore i

/-! ### HELLO -/

theorem restartSelf_sound (hs : Sound s) (h : held (s.slot i) = none) : Sound (s.restartSelf i) :=
  resolveDeferred_sound (sound_congr (view_raise _ i _) (modSlot_sound_of_held_none hs h h)) i

/-- An unprompted restart leaves the slot holding nothing. -/
theorem held_restartSelf (s : State) {i : SlotId} (h : held (s.slot i) = none) :
    held ((s.restartSelf i).slot i) = none := by
  have hraised : grip ((((s.modSlot i fun x => { x with state := .booting, restartCause := .self, abortWait := none })).raise
      i .restartSelf).slot i) = (.booting, held (s.slot i), (s.slot i).link.exchange.map (·.purpose)) := by
    rw [grip_of_view (view_raise _ i _), State.slot_modSlot_same]
    rfl
  have hstate := congrArg Prod.fst hraised
  have hbooting : SlotState.booting ≠ .ready := SlotState.noConfusion
  rw [State.restartSelf, slot_resolveDeferred_of_not_ready fun hready => hbooting (hstate.symm.trans hready)]
  exact (congrArg (·.2.1) hraised).trans h

/-- A HELLO finds its slot holding nothing, or has its stream dropped (R16, R40). -/
theorem takeHello_sound (hs : Sound s) (i : SlotId) (a : AgentIdentity) : Sound (s.takeHello i a) := by
  have hgreet : Sound (s.modSlot i fun x => x.greet a) :=
    modSlot_sound hs rfl fun hheld => ⟨(hs.grips i hheld).1, by simp [Slot.greet]⟩
  have hdropped := dropInFlight_sound hgreet i .agentRestart
  have hnone := held_dropInFlight (s.modSlot i fun x => x.greet a) i .agentRestart
  have hrestart := restartSelf_sound hdropped hnone
  have hrestarted := held_restartSelf _ hnone
  unfold State.takeHello
  dsimp only
  split
  · exact bootExchange_sound hrestart hrestarted
  · exact bootExchange_sound hrestart hrestarted
  · exact bootExchange_sound hrestart hrestarted
  · exact bootExchange_sound hrestart hrestarted
  · next hstate _ =>
    have hheld : held (s.slot i) = none := held_of_state (hs.grips i) fun h => hstate h
    refine bootExchange_sound (sound_congr (view_modSlot _ i rfl) hgreet) ?_
    rw [State.slot_modSlot_same, State.slot_modSlot_same]
    exact hheld

/-! ### Received frames -/

theorem sequenceError_sound (hs : Sound s) (i : SlotId) (q : Byte) : Sound (s.sequenceError i q) :=
  loseScore_sound (sound_congr (view_modSlot s i rfl) hs) i 12

theorem formatError_sound (hs : Sound s) (i : SlotId) (kind : Byte) : Sound (s.formatError i kind) := by
  unfold State.formatError
  refine loseScore_sound ?_ i 8
  split
  · exact hs
  · exact sound_congr (view_modSlot s i rfl) hs

theorem hunt_sound (hs : Sound s) (i : SlotId) : Sound (s.modSlot i Slot.hunt) := sound_congr (view_modSlot s i rfl) hs

theorem crcError_sound (hs : Sound s) (i : SlotId) : Sound (s.crcError i) := by
  unfold State.crcError
  dsimp only
  split
  · split
    · exact hunt_sound hs i
    · exact loseScore_sound (hunt_sound hs i) i 8
  · exact hs

theorem grip_frameTaken (x : Slot) (detector : Bool) : grip (x.frameTaken detector) = grip x := by
  unfold Slot.frameTaken
  split <;> rfl

/-- A received frame keeps the store sound when what handles it does. -/
theorem receive_sound (hs : Sound s) (i : SlotId) (f : Frame) (detector : Bool) {early good : State → State}
    (he : ∀ u, Sound u → Sound (early u)) (hg : ∀ u, Sound u → Sound (good u)) :
    Sound (s.receive i f detector early good) := by
  have htaken : Sound (s.modSlot i fun x => x.frameTaken detector) :=
    sound_congr (view_modSlot s i (grip_frameTaken _ detector)) hs
  unfold State.receive
  dsimp only
  split
  · exact htaken
  · exact takeHello_sound htaken i _
  · exact he _ htaken
  · exact sequenceError_sound htaken i _
  · exact formatError_sound htaken i _
  · exact slotWork_sound (hg _ (sound_congr (view_countGood _ i) htaken)) i

theorem appendText_sound (hs : Sound s) (i : SlotId) (bytes : List Byte) : Sound (s.appendText i bytes) :=
  sound_congr (view_appendText s i bytes) hs

/-- An exchange that succeeds: only a boot exchange changes the slot's state (R43, R44). -/
theorem exchangeSucceeds_sound (hs : Sound s) {e : Exchange} (h : (s.slot i).link.exchange = some e) :
    Sound (s.exchangeSucceeds i e) := by
  unfold State.exchangeSucceeds
  split
  · next hboot =>
    have hheld := held_of_boot (hs.grips i) (by rw [h, Option.map_some, hboot])
    refine becomeReady_sound (sound_congr (view_modSlot s i rfl) hs) ?_
    rw [State.slot_modSlot_same]
    exact hheld
  · have hgrip : grip ((s.slot i).stepDown e.target) = ((s.slot i).state, held (s.slot i), none) :=
      grip_extendWindow _ _ _
    refine resolveDeferred_sound (modSlot_sound hs (congrArg (·.2.1) hgrip) fun hheld => ?_) i
    rw [show held ((s.slot i).stepDown e.target) = held (s.slot i) from congrArg (·.2.1) hgrip] at hheld
    refine ⟨(congrArg (·.1) hgrip).trans (hs.grips i hheld).1, ?_⟩
    rw [show Option.map _ ((s.slot i).stepDown e.target).link.exchange = none from congrArg (·.2.2) hgrip]
    simp

theorem takeLinkAck_sound (hs : Sound s) (i : SlotId) (bytes : List Byte) : Sound (s.takeLinkAck i bytes) := by
  unfold State.takeLinkAck
  split
  · next e h =>
    split
    · exact exchangeSucceeds_sound hs h
    · exact hs
  · exact hs

theorem endTransaction_sound (hs : Sound s) (i : SlotId) (cls : ResultClass) (bytes : List Byte) :
    Sound (s.endTransaction i cls bytes) :=
  modSlot_sound_of_held_none (releaseReference_sound hs i) (held_releaseReference s i) (held_of_inFlight_none rfl)

theorem endAbort_sound (hs : Sound s) (i : SlotId) : Sound (s.endAbort i) :=
  modSlot_sound_of_held_none (releaseReference_sound hs i) (held_releaseReference s i) (held_of_inFlight_none rfl)

theorem takeResult_sound (hs : Sound s) (i : SlotId) (service : Byte) (bytes : List Byte) :
    Sound (s.takeResult i service bytes) := by
  unfold State.takeResult
  split
  · exact endTransaction_sound hs i _ bytes
  · exact endTransaction_sound hs i _ bytes
  · exact endAbort_sound hs i
  · exact hs

theorem takeCredit_sound (hs : Sound s) (i : SlotId) (bytes : List Byte) : Sound (s.takeCredit i bytes) := by
  unfold State.takeCredit
  split
  · exact sound_congr (view_modSlot s i (grip_modStream _ (fun _ => rfl) fun _ => rfl)) hs
  · exact hs

theorem takeFrame_sound (hs : Sound s) (i : SlotId) (f : Frame) : Sound (s.takeFrame i f) := by
  unfold State.takeFrame
  split
  · exact receive_sound hs i f false (fun _ hu => appendText_sound hu i _) fun _ hu => appendText_sound hu i _
  split
  · exact receive_sound hs i f false (fun _ hu => hu) fun _ hu => takeLinkAck_sound hu i _
  split
  · exact receive_sound hs i f false (fun _ hu => hu) fun _ hu => takeResult_sound hu i _ _
  split
  · exact receive_sound hs i f false (fun _ hu => hu) fun _ hu => takeCredit_sound hu i _
  · exact receive_sound hs i f false (fun _ hu => hu) fun _ hu => hu

theorem takeByte_sound (hs : Sound s) (i : SlotId) (byte : Byte) : Sound (s.takeByte i byte) := by
  have hcollect (bytes : List Byte) : Sound (s.modSlot i fun x => x.collect bytes s.now) :=
    sound_congr (view_modSlot s i rfl) hs
  unfold State.takeByte
  split
  · split
    · exact hcollect []
    · exact hs
  dsimp only
  split
  · exact hcollect _
  split
  · exact crcError_sound hs i
  split
  · exact hcollect _
  split
  · exact takeFrame_sound hs i _
  · exact crcError_sound hs i

/-! ### Frames sent -/

theorem frameSent_sound (hs : Sound s) (i : SlotId) (kind : Byte) {effect : Slot → Slot}
    (h : ∀ x, grip (effect x) = grip x) : Sound (s.frameSent i kind effect) := by
  have hgrip (x : Slot) : grip (Slot.frameEnded (if x.waitingKind kind then x else effect x)) = grip x := by
    rw [grip_frameEnded]
    split
    · rfl
    · exact h x
  unfold State.frameSent
  split
  · exact slotWork_sound (sound_congr (view_modSlot s i (hgrip _)) hs) i
  · exact hs

theorem grip_startExchangeWait (x : Slot) (now : Count) : grip (x.startExchangeWait now) = grip x := by
  unfold grip Slot.startExchangeWait
  rw [Option.map_map]
  rfl

theorem grip_startAbortWait (x : Slot) (now : Count) : grip (x.startAbortWait now) = grip x := by
  unfold Slot.startAbortWait
  split <;> rfl

theorem grip_openStream (x : Slot) : grip x.openStream = grip x := by
  unfold Slot.openStream
  split
  · exact grip_modStream x (fun r => by split <;> rfl) fun r => by split <;> rfl
  · rfl

theorem grip_chunkSent (x : Slot) : grip x.chunkSent = grip x := by
  unfold Slot.chunkSent
  split
  · exact grip_modStream x (fun r => by split <;> rfl) fun r => by split <;> rfl
  · rfl

/-! ### What a slot engine takes -/

theorem takeAppend_sound (hs : Sound s) (i : SlotId) (e : QueueEntry) : Sound (s.takeAppend i e) := by
  unfold State.takeAppend
  dsimp only
  split
  · exact slotWork_sound (sound_congr (view_modSlot s i rfl) hs) i
  · exact sound_congr (view_endMember s i _ _ _) hs

theorem held_disowned (x : Slot) :
    held { x with inFlight := x.inFlight.map fun f => { f with owner := none } } = held x := by
  unfold held Slot.stream
  cases x.inFlight <;> rfl

theorem takeWithdraw_sound (hs : Sound s) (i : SlotId) (tag : Tag) : Sound (s.takeWithdraw i tag) := by
  unfold State.takeWithdraw
  dsimp only
  split
  · exact sound_congr (view_modSlot s i rfl) hs
  · split
    · split
      · split
        · exact sound_congr (view_modSlot s i (by simp only [grip, held_disowned])) hs
        · exact enterAborting_sound hs i
        · exact hs
      · exact hs
    · exact hs

theorem takeRequest_sound (hs : Sound s) (i : SlotId) : Sound (s.takeRequest i) := by
  unfold State.takeRequest
  split
  · exact hs
  · have hpopped (rest : List SlotRequest) : Sound (s.modSlot i fun x => { x with requests := rest }) :=
      sound_congr (view_modSlot s i rfl) hs
    dsimp only
    split
    · exact takeAppend_sound (hpopped _) i _
    · exact takeWithdraw_sound (hpopped _) i _

theorem drain_sound (hs : Sound s) (i : SlotId) : Sound (s.drain i) :=
  sound_foldl (fun _ _ h => takeRequest_sound h i) _ hs

theorem operate_sound (hs : Sound s) (tag : Tag) (kind : Byte) (f : OperationFields) (work : Except ResultCode Work) :
    Sound (s.operate tag kind f work) := by
  unfold State.operate
  split
  · exact answer_sound hs _ _ _ _ _
  · next v w _ =>
    have hdrained : Sound ((slotsOf v.set).foldl State.drain s) := sound_foldl (fun _ i h => drain_sound h i) _ hs
    unfold State.acceptOperation
    dsimp only
    split
    · exact answer_sound hdrained _ _ _ _ _
    · refine sound_congr (view_openOperation _ _) (answer_sound ?_ _ _ _ _ _)
      exact sound_congr (s := (slotsOf v.set).foldl State.drain s) rfl hdrained

/-! ### Deadlines, faults and inputs -/

theorem abortWith_sound (hs : Sound s) (i : SlotId) (body : ReportBody) : Sound (s.abortWith i body) :=
  enterAborting_sound (sound_congr (view_modSlot s i rfl) hs) i

theorem takeFaultRequest_sound (hs : Sound s) (i : SlotId) (r : FaultRequest) : Sound (s.takeFaultRequest i r) := by
  unfold State.takeFaultRequest
  dsimp only
  split
  · exact enterFault_sound hs i _ _
  · split
    · exact sound_congr (view_modSlot s i rfl) hs
    · exact hs

theorem allowanceEnded_sound (hs : Sound s) (i : SlotId) (kind : AllowanceKind) : Sound (s.allowanceEnded i kind) := by
  unfold State.allowanceEnded
  split
  · split
    · exact recoveryDecision_sound (sound_congr (view_modSlot s i rfl) hs) i _ _
    · exact hs
  · exact hs

theorem takeDetach_sound (hs : Sound s) (i : SlotId) : Sound (s.takeDetach i) := by
  have hraised : Sound (s.raise i .detach) := sound_congr (view_raise s i _) hs
  unfold State.takeDetach
  dsimp only
  split
  · exact hraised
  · exact hraised
  · exact stopSlot_sound hraised i _ _

theorem openDrawer_sound (hs : Sound s) (i : SlotId) : Sound (s.openDrawer i) := by
  unfold State.openDrawer
  split
  · exact hs
  · exact hs
  · exact enterInhibited_sound hs i _

theorem closeDrawer_sound (hs : Sound s) (i : SlotId) : Sound (s.closeDrawer i) := by
  unfold State.closeDrawer
  split
  · next h =>
    simp only [Bool.and_eq_true, decide_eq_true_eq] at h
    exact leaveInhibited_sound hs (held_of_state (hs.grips i) (by rw [h.1]; exact SlotState.noConfusion))
  · exact hs

theorem clearFault_sound (hs : Sound s) (h : held (s.slot i) = none) : Sound (s.clearFault i) := by
  have hcleared : view (s.modSlot i fun x => { x with faultRecord := none }) = view s := view_modSlot s i rfl
  have hkept := (view_keepNestCode (s.modSlot i fun x => { x with faultRecord := none }) i).trans hcleared
  unfold State.clearFault
  dsimp only
  split
  · split
    · exact sound_congr ((view_writeFault _ i _ _).trans hkept) hs
    · have hheld := (held_of_grip (grip_of_view hkept i)).trans h
      exact modSlot_sound_of_held_none (sound_congr hkept hs) hheld hheld
  · have hheld := (held_of_grip (grip_of_view hcleared i)).trans h
    exact modSlot_sound_of_held_none (sound_congr hcleared hs) hheld hheld

end Sys2Proof.Machine.ImageStore
end

section
/-! PROOF. The image requests, the engine's blocks and the accesses to the store keep the image store sound (6.2 to 6.5). -/

namespace Sys2Proof.Machine.ImageStore

open Tables

variable {s t u : State} {i j : SlotId} {k l : ImageId} {tag : Tag} {kind : Byte}

/-! ### Damage and counted errors -/

/-- The record of an image in which a read has met an uncorrectable word (R118). -/
def damagedRecord (x : Image) : Image :=
  match x.state with
  | .ready | .loading => { x with state := .damaged }
  | .verifying => { x with state := .damaged, fields := { x.fields with computedCrc := none } }
  | _ => x

theorem image_modSlots (s : State) (f : SlotId → Slot → Slot) (l : ImageId) : (s.modSlots f).image l = s.image l :=
  congrArg (·.get l) (modSlots_keeps s f .images (by decide))

theorem oneRecord_self (s : State) (k : ImageId) : oneRecord s s k (s.image k) := fun l => by
  split
  · next h => rw [h]
  · rfl

theorem damagedRecord_of_idle {x : Image} (h : x.state = .ready ∨ x.state = .loading) :
    damagedRecord x = { x with state := .damaged } := by
  unfold damagedRecord
  rcases h with h | h <;> rw [h]

theorem damagedRecord_of_verifying {x : Image} (h : x.state = .verifying) :
    damagedRecord x = { x with state := .damaged, fields := { x.fields with computedCrc := none } } := by
  unfold damagedRecord
  rw [h]

theorem damagedRecord_of_other {x : Image} (hready : x.state ≠ .ready) (hloading : x.state ≠ .loading)
    (hverifying : x.state ≠ .verifying) : damagedRecord x = x := by
  unfold damagedRecord
  split <;> simp_all

theorem damageImage_record (s : State) (k : ImageId) : oneRecord s (s.damageImage k) k (damagedRecord (s.image k)) := by
  unfold State.damageImage
  split
  · next h =>
    rw [damagedRecord_of_idle (.inl h)]
    exact fun l => (image_modSlots _ _ l).trans (State.image_modImage s k l _)
  · next h =>
    rw [damagedRecord_of_idle (.inr h)]
    exact oneRecord_modImage s k _
  · next h =>
    rw [damagedRecord_of_verifying h]
    exact oneRecord_modImage s k _
  · next hready hloading hverifying =>
    rw [damagedRecord_of_other hready hloading hverifying]
    exact oneRecord_self s k

/-- A damage stop goes to every slot engine when a READY image is damaged, and no slot changes otherwise (R142). -/
theorem slot_damageImage (s : State) (k : ImageId) (j : SlotId) :
    (s.damageImage k).slot j =
      if (s.image k).state = .ready then
        { s.slot j with damageStops := (s.slot j).damageStops ++ [⟨k, (s.image k).generation⟩] }
      else s.slot j := by
  unfold State.damageImage
  split
  · next h => rw [slot_modSlots, h]; rfl
  · next h => rw [h]; rfl
  · next h => rw [h]; rfl
  · next h _ _ => rw [if_neg h]

theorem grip_damageImage (s : State) (k : ImageId) (j : SlotId) : grip ((s.damageImage k).slot j) = grip (s.slot j) := by
  rw [slot_damageImage]
  split <;> rfl

/-- The corrected words that a read has found are counted (R117). -/
def countedRecord (x : Image) (n : Nat) : Image :=
  { x with fields := { x.fields with corrected := min (x.fields.corrected + n) 65535 } }

theorem countCorrected_record (s : State) (k : ImageId) (n : Nat) :
    oneRecord s (s.countCorrected k n) k (countedRecord (s.image k) n) := oneRecord_modImage s k _

/-- The record of an image of which words have been read: `n` were corrected, and `bad` says that one was uncorrectable. -/
def chargedRecord (x : Image) (n : Nat) (bad : Bool) : Image :=
  if bad then damagedRecord (countedRecord x n) else countedRecord x n

theorem oneRecord_trans {x y : Image} (h1 : oneRecord s t k x) (h2 : oneRecord t u k y) : oneRecord s u k y := fun l => by
  rw [h2]
  split
  · rfl
  · next h => rw [h1, if_neg h]

theorem oneRecord_same {x : Image} (h : oneRecord s t k x) : t.image k = x := (h k).trans (if_pos rfl)

theorem chargeWords_record (s : State) (k : ImageId) (first n : Nat) :
    oneRecord s (s.chargeWords k first n) k
      (chargedRecord (s.image k) (Memory.corrected s.lostBits first n)
        (Memory.uncorrectable s.lostBits first n).isSome) := by
  have hcount := countCorrected_record s k (Memory.corrected s.lostBits first n)
  unfold State.chargeWords chargedRecord
  dsimp only
  split
  · have hdamage := damageImage_record (s.countCorrected k (Memory.corrected s.lostBits first n)) k
    rw [oneRecord_same hcount] at hdamage
    exact oneRecord_trans hcount hdamage
  · exact hcount

theorem grip_chargeWords (s : State) (k : ImageId) (first n : Nat) (j : SlotId) :
    grip ((s.chargeWords k first n).slot j) = grip (s.slot j) := by
  unfold State.chargeWords
  dsimp only
  split
  · exact grip_damageImage _ k j
  · rfl

/-- A record with the window, the references and the idle state of the one before it. -/
theorem idleRecord_sound (hs : Sound s) {y : Image} (himage : oneRecord s t k y) (hk : keepsBut [.images, .slots] s t)
    (hgrips : ∀ i, grip (t.slot i) = grip (s.slot i)) (hbefore : noJob (s.image k).state) (hafter : noJob y.state)
    (hbase : y.fields.base = (s.image k).fields.base) (hsize : y.fields.size = (s.image k).fields.size)
    (hmark : y.fields.highMark = (s.image k).fields.highMark)
    (hrefs : y.fields.references = (s.image k).fields.references) (hunits : y.units = (s.image k).units)
    (hready : (s.image k).state = .ready ∨ (s.image k).state = .damaged → y.state = .ready ∨ y.state = .damaged)
    (hloading : (s.image k).state = .loading ∨ (s.image k).state = .damaged → y.state = .loading ∨ y.state = .damaged) :
    Sound t := by
  obtain ⟨hfits, hapart⟩ := (windowsSound_iff s).mp hs.windows
  obtain ⟨hrefsound, hheld⟩ := hs.references k
  obtain ⟨hjobs, hblocks⟩ := hk .jobs (by decide)
  obtain ⟨hstore, hlost⟩ := hk .store (by decide)
  refine record_sound hs himage ?_ (fun l hl => apart_of_window hbase hunits (hapart k l (Ne.symm hl)))
    ⟨hrefs.trans hrefsound, fun h => hready (hheld h)⟩ (jobsListed_same hs.jobs himage hbefore hafter hjobs hblocks)
    (hk .port (by decide)) (fun tag offset data discard hp => ?_) ?_ hgrips
  · rw [windowFits, hbase, hsize, hmark, hunits]
    exact hfits k
  · obtain ⟨-, hfit, hstate, -⟩ := hs.write tag k offset data discard hp
    exact ⟨hsize ▸ hfit, hloading hstate⟩
  · rw [State.storeSound, hstore, hlost]
    exact hs.store

theorem damageImage_sound (hs : Sound s) (h : (s.image k).state ≠ .verifying) : Sound (s.damageImage k) := by
  by_cases hidle : (s.image k).state = .ready ∨ (s.image k).state = .loading
  · have hrec := damageImage_record s k
    rw [damagedRecord_of_idle hidle] at hrec
    have hunits : ({ s.image k with state := .damaged } : Image).units = (s.image k).units := by
      rw [units_of_not_free (x := s.image k) (by rcases hidle with h | h <;> rw [h] <;> exact ImageState.noConfusion)]
      rfl
    refine idleRecord_sound hs hrec (damageImage_keeps s k) (grip_damageImage s k) ?_
      ⟨ImageState.noConfusion, ImageState.noConfusion⟩ rfl rfl rfl rfl hunits (fun _ => .inr rfl) fun _ => .inr rfl
    rcases hidle with h | h <;> rw [h] <;> exact ⟨ImageState.noConfusion, ImageState.noConfusion⟩
  · have hself : s.damageImage k = s := by
      unfold State.damageImage
      cases hst : (s.image k).state <;> simp_all
    rw [hself]
    exact hs

/-- A change of fields that soundness does not read. -/
theorem modImage_sound_of_shape (hs : Sound s) {f : Image → Image} (hshape : shape (f (s.image k)) = shape (s.image k))
    (hrefs : (f (s.image k)).fields.references = (s.image k).fields.references) : Sound (s.modImage k f) := by
  refine sound_of_shape hs (fun l => shape_modImage hshape l) rfl rfl rfl rfl rfl (fun l => ?_) hs.grips
  have hsame : referenceSound (s.image l) (s.holders l) := hs.references l
  change referenceSound ((s.modImage k f).image l) (s.holders l)
  rw [State.image_modImage]
  split
  · next h =>
    rw [h] at hsame ⊢
    rw [referenceSound, hrefs, (shape_eq hshape).1]
    exact hsame
  · exact hsame

theorem countCorrected_sound (hs : Sound s) (k : ImageId) (n : Nat) : Sound (s.countCorrected k n) :=
  modImage_sound_of_shape hs rfl rfl

theorem chargeWords_sound (hs : Sound s) (h : (s.image k).state ≠ .verifying) (first n : Nat) :
    Sound (s.chargeWords k first n) := by
  have hcount := countCorrected_sound hs k (Memory.corrected s.lostBits first n)
  unfold State.chargeWords
  dsimp only
  split
  · refine damageImage_sound hcount ?_
    rw [oneRecord_same (countCorrected_record s k _)]
    exact h
  · exact hcount

theorem disturb_sound (hs : Sound s) (first n : Nat) (one two : List Nat) : Sound (s.disturb first n one two) :=
  withStore_sound hs hs.store.1 (Memory.codesWf_loseBits _ _ _ hs.store.2)

theorem withGranted_sound (hs : Sound s) (g : Option Grant) : Sound { s with granted := g } :=
  sound_congr (s := s) rfl hs

theorem chargeRead_sound (hs : Sound s) (k : ImageId) (block : Nat) : Sound (s.chargeRead k block) := by
  unfold State.chargeRead
  split
  · next h =>
    refine chargeWords_sound hs (fun hv => ?_) _ _
    simp [hv] at h
  · exact hs

/-! ### Requests -/

theorem request_sound (hs : Sound s) {run : State → State} (h : s.intakeOpen = true → Sound (run s)) :
    Sound (s.request run) := by
  unfold State.request
  split
  · next hopen => exact h hopen
  · exact hs

theorem requestWith_sound {α : Type} (hs : Sound s) {body : Body α} {run : α → State → State}
    (h : ∀ f, s.intakeOpen = true → Sound (run f s)) : Sound (s.requestWith tag kind body run) := by
  refine request_sound hs fun hopen => ?_
  cases body with
  | shaped f => exact h f hopen
  | misshapen b => exact answer_sound hs _ _ _ _ _

/-- No request is in progress while intake is open (R186). -/
theorem idle_of_intakeOpen (h : s.intakeOpen = true) : s.port.inProgress = none ∧ s.port.intakeHold = false := by
  simp only [State.intakeOpen, Bool.and_eq_true, Option.isNone_iff_eq_none, Bool.not_eq_true'] at h
  obtain ⟨⟨⟨-, hp⟩, hh⟩, -⟩ := h
  exact ⟨hp, hh⟩

theorem images_any (s : State) (p : Image → Bool) : s.images.toList.any p = true ↔ ∃ l, p (s.image l) = true := by
  rw [List.any_eq_true]
  constructor
  · rintro ⟨x, hx, hp⟩
    obtain ⟨n, hn, rfl⟩ := List.getElem_of_mem hx
    exact ⟨⟨n, by simpa using hn⟩, by simpa [State.image, Vector.get] using hp⟩
  · rintro ⟨l, hl⟩
    exact ⟨s.image l, by simp [State.image, Vector.get], hl⟩

/-- A window that passes the checks of R122. -/
theorem defineRefusal_eq_none_iff (s : State) (k : ImageId) (base units : Nat) :
    s.defineRefusal k base units = none ↔
      (s.image k).state = .free ∧ base % units = 0 ∧ base + units ≤ Config.storeUnits ∧
        ∀ l, sharesUnit base units (s.image l) = false := by
  have hany := images_any s (sharesUnit base units)
  have hnot : (¬ s.images.toList.any (sharesUnit base units) = true) ↔ ∀ l, sharesUnit base units (s.image l) = false := by
    rw [hany]
    simp
  unfold State.defineRefusal
  rw [← hnot]
  split_ifs <;> simp_all

end Sys2Proof.Machine.ImageStore
end

section
/-! PROOF. The image requests and the accesses to the store keep the image store sound (6.2 to 6.5). -/

namespace Sys2Proof.Machine.ImageStore

open Tables

variable {s t u : State} {i j : SlotId} {k l : ImageId} {tag : Tag} {kind : Byte}

/-- Wherever an outcome goes on, the store is sound. -/
def goesOnSound (out : Host.Outcome State Fault Refusal) : Prop := ∀ t, out = .next t → Sound t

theorem goesOnSound_next (h : Sound t) : goesOnSound (.next t) := fun _ ht => by cases ht; exact h

theorem goesOnSound_fault (r : Fault) : goesOnSound (.fault r) := fun _ h => by cases h

/-! ### Requests -/

theorem noJob_of_free {x : ImageState} (h : x = .free) : noJob x := by
  rw [h]
  exact ⟨ImageState.noConfusion, ImageState.noConfusion⟩

theorem noJob_of_loading {x : ImageState} (h : x = .loading) : noJob x := by
  rw [h]
  exact ⟨ImageState.noConfusion, ImageState.noConfusion⟩

/-- The window of R122 is apart from every other one. -/
theorem apart_of_not_shares {x y : Image} {units : Nat} (hunits : y.units = units)
    (h : sharesUnit y.fields.base units x = false) : apart y x := by
  intro _ hx
  have hstate : x.state ≠ .free := fun hf => hx (if_pos hf)
  simp only [sharesUnit, Bool.and_eq_false_iff, bne_eq_false_iff_eq, decide_eq_false_iff_not] at h
  rw [hunits]
  rcases h with (h | h) | h
  · exact absurd h hstate
  · omega
  · omega

/-- A window is opened, and its clearing joins the list (R123, R124). -/
theorem define_sound (hs : Sound s) (hidle : s.port.inProgress = none) {base : Nat} {size : SizeClass}
    (h : s.defineRefusal k base size.units = none) :
    Sound { s.modImage k fun x => x.define base size with jobs := s.jobs ++ [.clear k] } := by
  obtain ⟨hfree, hmod, hfit, hapart⟩ := (defineRefusal_eq_none_iff s k base size.units).mp h
  have himage := oneRecord_modImage s k fun x => x.define base size
  have hunits : ((s.image k).define base size).units = size.units := units_of_not_free ImageState.noConfusion
  have hholders := holders_eq_zero_of_state hs (k := k) (by rw [hfree]; exact ImageState.noConfusion)
    (by rw [hfree]; exact ImageState.noConfusion)
  refine record_sound hs himage ⟨hmod, hunits ▸ hfit, Nat.zero_le _⟩
    (fun l _ => apart_of_not_shares hunits (hapart l)) ⟨hholders.symm, fun hne => absurd hholders hne⟩
    (jobsListed_append (job := .clear k) hs.jobs himage (noJob_of_free hfree) rfl rfl rfl) rfl
    (fun _ _ _ _ hp => ?_) hs.store fun _ => rfl
  rw [hidle] at hp
  cases hp

theorem imageDefine_sound (hs : Sound s) (body : Body ImageDefineFields) :
    goesOnSound (execImageDefine tag body s) := by
  refine goesOnSound_next (requestWith_sound hs fun f hopen => ?_)
  split
  · exact answer_sound hs _ _ _ _ _
  split
  · exact answer_sound hs _ _ _ _ _
  split
  · exact answer_sound hs _ _ _ _ _
  · next h =>
    exact grant_sound (answer_sound (define_sound hs (idle_of_intakeOpen hopen).1 h) _ _ _ _ _)

/-- A write that passes the checks of R126. -/
theorem writeRefusal_eq_none {f : ImageWriteFields} (h : s.writeRefusal f = none) (hk : imageNumber f.image = some k) :
    f.data ≠ [] ∧ (s.image k).state = .loading ∧
      f.offset.toNat + f.data.length ≤ (s.image k).fields.size.bytes := by
  unfold State.writeRefusal at h
  rw [hk] at h
  dsimp only at h
  split_ifs at h with hempty hlong hstate hfit
  exact ⟨by simpa using hempty, by simpa using hstate, by omega⟩

/-- The high mark of a LOADING image rises within its window (R126). -/
theorem raiseMark_sound (hs : Sound s) (hidle : s.port.inProgress = none) (hstate : (s.image k).state = .loading) {n : Nat}
    (hn : n ≤ (s.image k).fields.size.bytes) :
    Sound (s.modImage k fun x => { x with fields := { x.fields with highMark := max x.fields.highMark n } }) := by
  obtain ⟨hfits, hapart⟩ := (windowsSound_iff s).mp hs.windows
  obtain ⟨hmod, hfit, hmark⟩ := hfits k
  have himage := oneRecord_modImage s k fun x =>
    { x with fields := { x.fields with highMark := max x.fields.highMark n } }
  refine record_sound hs himage ⟨hmod, hfit, max_le hmark hn⟩
    (fun l hl => apart_of_window (x := s.image k) rfl rfl (hapart k l (Ne.symm hl))) (hs.references k)
    (jobsListed_same hs.jobs himage (noJob_of_loading hstate) (noJob_of_loading hstate) rfl rfl) rfl
    (fun _ _ _ _ hp => ?_) hs.store fun _ => rfl
  rw [hidle] at hp
  cases hp

theorem imageWrite_sound (hs : Sound s) (body : Body ImageWriteFields) : goesOnSound (execImageWrite tag body s) := by
  refine goesOnSound_next (requestWith_sound hs fun f hopen => ?_)
  obtain ⟨hidle, hhold⟩ := idle_of_intakeOpen hopen
  split
  · exact answer_sound hs _ _ _ _ _
  · exact hs
  · next k hrefusal hk =>
    obtain ⟨hdata, hstate, hfit⟩ := writeRefusal_eq_none hrefusal hk
    have hraised := raiseMark_sound (s := s.noteAlone) (sound_congr (view_noteAlone s) hs) hidle hstate hfit
    refine grant_sound (withPort_sound hraised fun tag l offset data discard hp => ?_)
    simp only [Option.some.injEq, InProgress.imageWrite.injEq] at hp
    obtain ⟨-, rfl, rfl, rfl, -⟩ := hp
    rw [State.image_modImage_same]
    exact ⟨hdata, hfit, .inl hstate, hhold⟩

/-- A LOADING image is verified next (R128). -/
theorem commit_sound (hs : Sound s) (hidle : s.port.inProgress = none) (hstate : (s.image k).state = .loading)
    (crc : Word) :
    Sound { s.modImage k fun x =>
        { x with state := .verifying, fields := { x.fields with expectedCrc := some crc, computedCrc := none } } with
      jobs := s.jobs ++ [.verify k] } := by
  obtain ⟨hfits, hapart⟩ := (windowsSound_iff s).mp hs.windows
  have himage := oneRecord_modImage s k fun x =>
    { x with state := .verifying, fields := { x.fields with expectedCrc := some crc, computedCrc := none } }
  have hbefore : (s.image k).units = (s.image k).fields.size.units :=
    units_of_not_free (by rw [hstate]; exact ImageState.noConfusion)
  have hholders := holders_eq_zero_of_state hs (k := k) (by rw [hstate]; exact ImageState.noConfusion)
    (by rw [hstate]; exact ImageState.noConfusion)
  have hfit := hfits k
  rw [windowFits, hbefore] at hfit
  refine record_sound hs himage hfit
    (fun l hl => apart_of_window (x := s.image k) rfl hbefore.symm (hapart k l (Ne.symm hl)))
    ⟨(hs.references k).1, fun hne => absurd hholders hne⟩
    (jobsListed_append (job := .verify k) hs.jobs himage (noJob_of_loading hstate) rfl rfl rfl) rfl
    (fun _ _ _ _ hp => ?_) hs.store fun _ => rfl
  rw [hidle] at hp
  cases hp

theorem imageCommit_sound (hs : Sound s) (body : Body ImageCommitFields) :
    goesOnSound (execImageCommit tag body s) := by
  refine goesOnSound_next (requestWith_sound hs fun f hopen => ?_)
  split
  · exact answer_sound hs _ _ _ _ _
  split
  · next h =>
    simp only [Bool.and_eq_true, decide_eq_true_eq] at h
    exact grant_sound (answer_sound (commit_sound hs (idle_of_intakeOpen hopen).1 h.1 f.crc) _ _ _ _ _)
  · exact answer_sound hs _ _ _ _ _

theorem absent_apart {x y : Image} (h : y.state = .free) : apart y x := fun hy => absurd (if_pos h) hy

/-- An image that no stream holds is FREE (R130). -/
theorem release_sound (hs : Sound s) (hidle : s.port.inProgress = none) (hjob : noJob (s.image k).state)
    (hrefs : (s.image k).fields.references = 0) :
    Sound (s.modImage k fun x => { x with state := .free, fields := ImageFields.absent }) := by
  have himage := oneRecord_modImage s k fun x => { x with state := .free, fields := ImageFields.absent }
  have hholders : s.holders k = 0 := (hs.references k).1.symm.trans hrefs
  refine record_sound hs himage ⟨rfl, Nat.zero_le _, Nat.zero_le _⟩ (fun _ _ => absent_apart rfl)
    ⟨hholders.symm, fun hne => absurd hholders hne⟩ (jobsListed_same hs.jobs himage hjob (noJob_of_free rfl) rfl rfl) rfl
    (fun _ _ _ _ hp => ?_) hs.store fun _ => rfl
  rw [hidle] at hp
  cases hp

theorem noJob_of_releasable {x : ImageState} (h : x.releasable = true) : noJob x := by
  constructor <;> rintro rfl <;> cases h

theorem imageRelease_sound (hs : Sound s) (body : Body Byte) : goesOnSound (execImageRelease tag body s) := by
  refine goesOnSound_next (requestWith_sound hs fun f hopen => ?_)
  split
  · exact answer_sound hs _ _ _ _ _
  split
  · exact answer_sound hs _ _ _ _ _
  split
  · exact answer_sound hs _ _ _ _ _
  · next hstate hrefs =>
    exact answer_sound (release_sound hs (idle_of_intakeOpen hopen).1 (noJob_of_releasable (by simpa using hstate))
      (by simpa using hrefs)) _ _ _ _ _

/-! ### The accesses of a write -/

theorem accessLength_le (a : Nat) (data : List Byte) : accessLength a data ≤ data.length := Nat.min_le_left _ _

theorem accessLength_pos (a : Nat) {data : List Byte} (h : data ≠ []) : 0 < accessLength a data := by
  have hlength : 0 < data.length := List.length_pos_iff.mpr h
  have hblock : a % Config.blockBytes < Config.blockBytes := Nat.mod_lt _ (by decide)
  unfold accessLength
  omega

/-- The bytes and the codes after one access of a write stay in canonical form (R117, R127). -/
theorem writeBlock_sound (hs : Sound s) {a : Nat} {data : List Byte} (hdata : data ≠ [])
    (hfit : a + data.length ≤ Config.storeBytes) (first last : WordCheck) (word n : Nat) :
    Sound { s with
      store := writeBlock s.store a (data.take (accessLength a data)) first last
      lostBits := Memory.freshen s.lostBits word n
      granted := none } := by
  have hle := accessLength_le a data
  have hpos := accessLength_pos a hdata
  refine sound_congr (s := { s with
    store := writeBlock s.store a (data.take (accessLength a data)) first last
    lostBits := Memory.freshen s.lostBits word n }) rfl
    (withStore_sound hs (writeBlock_wf first last ?_ ?_ hs.store.1) (Memory.codesWf_freshen word n hs.store.2))
  · rw [List.length_take]
    omega
  · rw [← List.length_pos_iff, List.length_take]
    omega

/-- The first byte that an access of a write stores (R127). -/
def accessStart (s : State) (k : ImageId) (offset : Nat) : Nat := (s.image k).start + offset

/-- The bytes and the codes after one access of a write, with the store free again (R117, R127). -/
def stored (s : State) (k : ImageId) (offset : Nat) (data : List Byte) : State :=
  let a := accessStart s k offset
  let n := accessLength a data
  { s with
    store :=
      writeBlock s.store a (data.take n) (Memory.check s.lostBits (a / 8)) (Memory.check s.lostBits ((a + n - 1) / 8))
    lostBits := Memory.freshen s.lostBits (a / 8) ((a + n - 1) / 8 + 1 - a / 8)
    granted := none }

/-- One access of a write is done: its bytes are stored, and the words it read are charged to the image (R117, R118). -/
def written (s : State) (k : ImageId) (offset : Nat) (data : List Byte) : State :=
  let a := accessStart s k offset
  let n := accessLength a data
  let first := Memory.check s.lostBits (a / 8)
  let last := Memory.check s.lostBits ((a + n - 1) / 8)
  let u := (stored s k offset data).countCorrected k (correctedWords a n first last)
  if damagingWords a n first last then u.damageImage k else u

/-- The request in progress after an access: none after the last one, else the bytes that are left (R127). -/
theorem writeAccess_eq (s : State) (tag : Tag) (k : ImageId) (offset : Nat) (data : List Byte) (discard : Bool) :
    s.writeAccess tag k offset data discard =
      let n := accessLength (accessStart s k offset) data
      let v := written s k offset data
      if (data.drop n).isEmpty then
        let w : State := { v with port := { v.port with inProgress := none } }
        (if discard then w
          else w.answer tag codeImageWrite .accepted 0 (.highMark (v.image k).fields.highMark)).grant
      else
        State.grant
          { v with port := { v.port with inProgress := some (.imageWrite tag k (offset + n) (data.drop n) discard) } } :=
  rfl

/-- An access counts the words it has corrected, and damages the image where one was uncorrectable. -/
theorem written_cases (s : State) (k : ImageId) (offset : Nat) (data : List Byte) :
    ∃ n, written s k offset data = (stored s k offset data).countCorrected k n ∨
      written s k offset data = ((stored s k offset data).countCorrected k n).damageImage k := by
  unfold written
  dsimp only
  split
  · exact ⟨_, .inr rfl⟩
  · exact ⟨_, .inl rfl⟩

theorem written_keeps (s : State) (k : ImageId) (offset : Nat) (data : List Byte) :
    keepsBut [.images, .slots] (stored s k offset data) (written s k offset data) := by
  obtain ⟨n, h⟩ := written_cases s k offset data
  have hcount := (countCorrected_keeps (stored s k offset data) k n).mono (B := [.images, .slots]) (by decide)
  rcases h with h | h <;> rw [h]
  · exact hcount
  · exact hcount.trans (damageImage_keeps _ k)

theorem written_port (s : State) (k : ImageId) (offset : Nat) (data : List Byte) :
    (written s k offset data).port = s.port := written_keeps s k offset data .port (by decide)

theorem stored_sound (hs : Sound s) {offset : Nat} {data : List Byte} (hdata : data ≠ [])
    (hfit : accessStart s k offset + data.length ≤ Config.storeBytes) : Sound (stored s k offset data) :=
  writeBlock_sound hs hdata hfit _ _ _ _

theorem written_sound (hs : Sound s) {offset : Nat} {data : List Byte} (hdata : data ≠ [])
    (hstate : (s.image k).state ≠ .verifying)
    (hfit : accessStart s k offset + data.length ≤ Config.storeBytes) : Sound (written s k offset data) := by
  obtain ⟨n, h⟩ := written_cases s k offset data
  have hcounted := countCorrected_sound (stored_sound hs hdata hfit) k n
  rcases h with h | h <;> rw [h]
  · exact hcounted
  · refine damageImage_sound hcounted ?_
    rw [oneRecord_same (countCorrected_record _ k n)]
    exact hstate

theorem writeAccess_sound (hs : Sound s) {offset : Nat} {data : List Byte} {discard : Bool}
    (hp : s.port.inProgress = some (.imageWrite tag k offset data discard))
    (hfit : accessStart s k offset + data.length ≤ Config.storeBytes) :
    Sound (s.writeAccess tag k offset data discard) := by
  obtain ⟨hdata, -, hstate, hhold⟩ := hs.write tag k offset data discard hp
  have hnot : (s.image k).state ≠ .verifying := by
    rcases hstate with h | h <;> rw [h] <;> exact ImageState.noConfusion
  have hport := written_port s k offset data
  have hv := written_sound hs hdata hnot hfit
  obtain ⟨-, hfit, hstate, -⟩ := hv.write tag k offset data discard (hport ▸ hp)
  have hle := accessLength_le (accessStart s k offset) data
  rw [writeAccess_eq]
  generalize written s k offset data = v at *
  generalize accessLength (accessStart s k offset) data = n at *
  dsimp only
  split
  · have hdone : Sound { v with port := { v.port with inProgress := none } } :=
      withPort_sound_of_no_write hv fun _ _ _ _ _ h => by cases h
    refine grant_sound ?_
    split
    · exact hdone
    · exact answer_sound hdone _ _ _ _ _
  · next hrest =>
    refine grant_sound (withPort_sound hv fun tag' l offset' data' discard' h => ?_)
    simp only [Option.some.injEq, InProgress.imageWrite.injEq] at h
    obtain ⟨-, rfl, rfl, rfl, -⟩ := h
    refine ⟨by simpa using hrest, ?_, hstate, by rw [hport]; exact hhold⟩
    rw [List.length_drop]
    omega

end Sys2Proof.Machine.ImageStore
end

section
/-! PROOF. The blocks of the clear/verify engine, the ends of its jobs, the reads of streams, and the resets keep the image store
sound (6.3 to 6.6, 10.4). -/

namespace Sys2Proof.Machine.ImageStore

open Tables

variable {s t u : State} {i j : SlotId} {k l : ImageId} {tag : Tag} {job : Job} {rest : List Job}

/-! ### The engine's blocks -/

/-- The image of the job at the head is in the state of that job (R124). -/
theorem state_of_head (hs : Sound s) (hhead : s.jobs = job :: rest) : (s.image (jobImage job)).state = jobState job := by
  obtain ⟨-, -, hiff⟩ := (jobsListed_iff s).mp hs.jobs
  exact (hiff job).mp (by rw [hhead]; exact List.mem_cons_self)

theorem clearBlocks_sound (hs : Sound s) (first n : Nat) : Sound (s.clearBlocks first n) :=
  withStore_sound hs (Memory.wf_clear _ _ hs.store.1) (Memory.codesWf_freshen _ _ hs.store.2)

theorem releaseEngine_eq (s : State) : ∃ g, s.releaseEngine = { s with granted := g } := by
  unfold State.releaseEngine
  split
  · exact ⟨none, rfl⟩
  · exact ⟨s.granted, rfl⟩

theorem releaseEngine_sound (hs : Sound s) : Sound s.releaseEngine := by
  obtain ⟨g, h⟩ := releaseEngine_eq s
  rw [h]
  exact withGranted_sound hs g

/-- A block of the job at the head is done (R124). -/
theorem progress_sound (hs : Sound s) (hhead : s.jobs = job :: rest) (h : s.engineBlocks < s.jobBlocks job) :
    Sound { s with engineBlocks := s.engineBlocks + 1 } := by
  obtain ⟨hnodup, -, hiff⟩ := hs.jobs
  refine ⟨hs.windows, hs.references, ⟨hnodup, ?_, hiff⟩, hs.write, hs.store, hs.grips⟩
  change s.engineBlocks + 1 ≤ (s.jobs.head?.map s.jobBlocks).getD 0
  rw [hhead]
  exact h

/-- The job at the head ends: its image keeps its window, with a high mark no higher, and has no job (R125, R129). -/
theorem jobEnd_sound (hs : Sound s) (hhead : s.jobs = job :: rest) {y : Image}
    (himage : oneRecord s t (jobImage job) y) (hjobs : t.jobs = rest) (hblocks : t.engineBlocks = 0)
    (hport : t.port = s.port) (hstore : t.store = s.store) (hlost : t.lostBits = s.lostBits)
    (hgrips : ∀ i, grip (t.slot i) = grip (s.slot i)) (hafter : noJob y.state) (hfree : y.state ≠ .free)
    (hbase : y.fields.base = (s.image (jobImage job)).fields.base)
    (hsize : y.fields.size = (s.image (jobImage job)).fields.size)
    (hmark : y.fields.highMark ≤ (s.image (jobImage job)).fields.highMark)
    (hrefs : y.fields.references = (s.image (jobImage job)).fields.references) : Sound t := by
  obtain ⟨hfits, hapart⟩ := (windowsSound_iff s).mp hs.windows
  have hstate := state_of_head hs hhead
  have hne (x : ImageState) (hx : x ≠ jobState job) : (s.image (jobImage job)).state ≠ x := fun h =>
    hx (h.symm.trans hstate)
  have hunits : y.units = (s.image (jobImage job)).units := by
    rw [units_of_not_free hfree, units_of_not_free (hne .free (by cases job <;> exact ImageState.noConfusion)), hsize]
  have hholders := holders_eq_zero_of_state hs (hne .ready (by cases job <;> exact ImageState.noConfusion))
    (hne .damaged (by cases job <;> exact ImageState.noConfusion))
  obtain ⟨hmod, hfit, hbefore⟩ := hfits (jobImage job)
  refine record_sound hs himage ⟨by rw [hbase, hsize]; exact hmod, by rw [hbase, hunits]; exact hfit, ?_⟩
    (fun l hl => apart_of_window hbase hunits (hapart _ l (Ne.symm hl)))
    ⟨hrefs.trans (hs.references _).1, fun h => absurd hholders h⟩
    (jobsListed_end hs.jobs hhead himage hafter hjobs hblocks) hport (fun tag offset data discard hp => ?_) ?_ hgrips
  · rw [hsize]
    exact hmark.trans hbefore
  · obtain ⟨-, -, hw, -⟩ := hs.write tag _ offset data discard hp
    rcases hw with hw | hw
    · exact absurd hw (hne .loading (by cases job <;> exact ImageState.noConfusion))
    · exact absurd hw (hne .damaged (by cases job <;> exact ImageState.noConfusion))
  · rw [State.storeSound, hstore, hlost]
    exact hs.store

theorem chargeWords_same (s : State) (k : ImageId) (first n : Nat) :
    (s.chargeWords k first n).jobs = s.jobs ∧ (s.chargeWords k first n).engineBlocks = s.engineBlocks ∧
      (s.chargeWords k first n).store = s.store ∧ (s.chargeWords k first n).lostBits = s.lostBits ∧
      (s.chargeWords k first n).port = s.port := by
  have hk := chargeWords_keeps s k first n
  obtain ⟨hjobs, hblocks⟩ := hk .jobs (by decide)
  obtain ⟨hstore, hlost⟩ := hk .store (by decide)
  exact ⟨hjobs, hblocks, hstore, hlost, hk .port (by decide)⟩

/-- What a verification's read leaves of the record, once it is VERIFYING no longer. -/
theorem chargedRecord_window (x : Image) (n : Nat) (bad : Bool) :
    (chargedRecord x n bad).fields.base = x.fields.base ∧ (chargedRecord x n bad).fields.size = x.fields.size ∧
      (chargedRecord x n bad).fields.highMark = x.fields.highMark ∧
      (chargedRecord x n bad).fields.references = x.fields.references := by
  unfold chargedRecord damagedRecord
  split
  · split <;> exact ⟨rfl, rfl, rfl, rfl⟩
  · exact ⟨rfl, rfl, rfl, rfl⟩

/-- A verification ends at an uncorrectable word (R129). -/
theorem verifyDamaged_sound (hs : Sound s) (hhead : s.jobs = .verify k :: rest) {first n : Nat}
    (hbad : (Memory.uncorrectable s.lostBits first n).isSome = true) : Sound (s.chargeWords k first n).endJob := by
  have hrecord := chargeWords_record s k first n
  rw [hbad] at hrecord
  have hstate : (s.image k).state = .verifying := state_of_head hs hhead
  obtain ⟨hbase, hsize, hmark, hrefs⟩ := chargedRecord_window (s.image k) (Memory.corrected s.lostBits first n) true
  have hdamaged : (chargedRecord (s.image k) (Memory.corrected s.lostBits first n) true).state = .damaged :=
    congrArg Image.state (damagedRecord_of_verifying (x := countedRecord _ _) hstate)
  obtain ⟨hjobs, -, hstore, hlost, hport⟩ := chargeWords_same s k first n
  refine jobEnd_sound (job := .verify k) hs hhead hrecord ?_ rfl hport hstore hlost (grip_chargeWords s k first n) ?_ ?_
    hbase hsize hmark.le hrefs
  · change (s.chargeWords k first n).jobs.drop 1 = rest
    rw [hjobs, hhead]
    rfl
  · rw [hdamaged]
    exact ⟨ImageState.noConfusion, ImageState.noConfusion⟩
  · rw [hdamaged]
    exact ImageState.noConfusion

theorem chargeWords_of_clean {first n : Nat} (h : (Memory.uncorrectable s.lostBits first n).isSome = false) (k : ImageId) :
    s.chargeWords k first n = s.countCorrected k (Memory.corrected s.lostBits first n) := by
  simp only [State.chargeWords, h, Bool.false_eq_true, if_false]

theorem engineLeft_of_head (hhead : s.jobs = job :: rest) : s.engineLeft = s.jobBlocks job - s.engineBlocks := by
  simp only [State.engineLeft, hhead]

theorem engineBlock_sound (hs : Sound s) (hhead : s.jobs = job :: rest) (hleft : s.engineLeft ≠ 0) :
    Sound (s.engineBlock job) := by
  have hlt : s.engineBlocks < s.jobBlocks job := by
    rw [engineLeft_of_head hhead] at hleft
    omega
  cases job with
  | clear k => exact progress_sound (clearBlocks_sound hs _ 1) hhead hlt
  | verify k =>
    simp only [State.engineBlock]
    split
    · next hbad => exact verifyDamaged_sound hs hhead hbad
    · next hclean =>
      rw [Bool.not_eq_true] at hclean
      rw [chargeWords_of_clean hclean]
      refine progress_sound (countCorrected_sound hs k _) hhead ?_
      have hmark := oneRecord_same (countCorrected_record s k
        (Memory.corrected s.lostBits (Config.blockWords * ((s.image k).firstBlock + s.engineBlocks)) Config.blockWords))
      simp only [State.jobBlocks, hmark]
      exact hlt

theorem endEngineAccess_sound (hs : Sound s) : Sound s.endEngineAccess := by
  unfold State.endEngineAccess
  split
  · split
    · next j rest hhead =>
      refine grant_sound (withGranted_sound ?_ none)
      split
      · exact hs
      · next hleft => exact engineBlock_sound hs hhead hleft
    · exact grant_sound (withGranted_sound hs none)
  · exact grant_sound hs

/-! ### The ends of the engine's jobs -/

theorem clearingJobEnd_sound (hs : Sound s) : goesOnSound (execClearingJobEnd s) := by
  have ht := grant_sound hs
  refine goesOnSound_next ?_
  generalize s.grant = t at ht ⊢
  split
  · next k rest hhead =>
    split
    · set c := t.clearBlocks (t.image k).firstBlock (t.jobBlocks (.clear k)) with hc
      have hcs : Sound c := clearBlocks_sound ht _ _
      obtain ⟨g, hg⟩ := releaseEngine_eq c.endJob
      rw [hg]
      refine grant_sound (jobEnd_sound (job := .clear k) hcs hhead (oneRecord_modImage _ k _) ?_ rfl rfl rfl rfl
        (fun _ => rfl) ⟨ImageState.noConfusion, ImageState.noConfusion⟩ ImageState.noConfusion rfl rfl (Nat.zero_le _) rfl)
      change t.jobs.drop 1 = rest
      rw [hhead]
      rfl
    · exact hs
  · exact hs

theorem verified_window (x : Image) (crc : Word) :
    noJob (x.verified crc).state ∧ (x.verified crc).state ≠ .free ∧ (x.verified crc).fields.base = x.fields.base ∧
      (x.verified crc).fields.size = x.fields.size ∧ (x.verified crc).fields.highMark = x.fields.highMark ∧
      (x.verified crc).fields.references = x.fields.references := by
  unfold Image.verified
  split <;>
    exact ⟨⟨ImageState.noConfusion, ImageState.noConfusion⟩, ImageState.noConfusion, rfl, rfl, rfl, rfl⟩

/-- A verification that has read every block ends with the CRC computed (R129). -/
theorem verified_sound (hs : Sound s) (hhead : s.jobs = .verify k :: rest) (crc : Word) (g : Option Grant) :
    Sound (State.modImage { s.endJob with granted := g } k fun x => x.verified crc) := by
  obtain ⟨hjob, hfree, hbase, hsize, hmark, hrefs⟩ := verified_window (s.image k) crc
  refine jobEnd_sound (job := .verify k) hs hhead (oneRecord_modImage _ k _) ?_ rfl rfl rfl rfl (fun _ => rfl) hjob hfree
    hbase hsize hmark.le hrefs
  change s.jobs.drop 1 = rest
  rw [hhead]
  rfl

theorem verificationJobEnd_sound (hs : Sound s) (one two : List Nat) : goesOnSound (execVerificationJobEnd one two s) := by
  have ht := grant_sound hs
  unfold execVerificationJobEnd
  generalize s.grant = t at ht ⊢
  dsimp only
  split
  · next k rest hhead =>
    generalize hu : t.disturb (Config.blockWords * (t.image k).firstBlock)
      (Config.blockWords * t.jobBlocks (.verify k)) one two = u
    have hus : Sound u := hu ▸ disturb_sound ht _ _ _ _
    have huhead : u.jobs = .verify k :: rest := by rw [← hu]; exact hhead
    split
    · split
      · exact goesOnSound_fault _
      · refine goesOnSound_next (grant_sound ?_)
        generalize Config.blockWords * ((u.image k).firstBlock + u.engineBlocks) = first
        generalize Config.blockWords * u.verifyLeft k = n
        split
        · next hbad => exact releaseEngine_sound (verifyDamaged_sound hus huhead hbad)
        · next hclean =>
          rw [Bool.not_eq_true] at hclean
          rw [chargeWords_of_clean hclean]
          obtain ⟨g, hg⟩ := releaseEngine_eq (u.countCorrected k (Memory.corrected u.lostBits first n)).endJob
          rw [hg]
          exact verified_sound (countCorrected_sound hus k _) huhead _ g
    · exact goesOnSound_next hs
  · exact goesOnSound_next hs

/-! ### The accesses reported done -/

theorem imageWriteAccessDone_sound (hs : Sound s) (one two : List Nat) :
    goesOnSound (execImageWriteAccessDone one two s) := by
  have ht : Sound (if s.granted = some .writePath then s else s.endEngineAccess) := by
    split
    · exact hs
    · exact endEngineAccess_sound hs
  unfold execImageWriteAccessDone
  dsimp only
  generalize (if s.granted = some .writePath then s else s.endEngineAccess) = t at ht ⊢
  split
  · next tag k offset data discard _ hp =>
    split
    · exact goesOnSound_fault _
    · next hfit =>
      exact goesOnSound_next (writeAccess_sound (disturb_sound ht _ _ _ _) hp (Nat.not_lt.mp hfit))
  · exact goesOnSound_next hs

theorem streamChunkRead_sound (hs : Sound s) (i : SlotId) (one two : List Nat) :
    goesOnSound (execStreamChunkRead i one two s) := by
  have ht : Sound (if s.granted = some .engine then s.endEngineAccess else s) := by
    split
    · exact endEngineAccess_sound hs
    · exact hs
  unfold execStreamChunkRead
  dsimp only
  generalize (if s.granted = some .engine then s.endEngineAccess else s) = t at ht ⊢
  split
  · next j k block _ =>
    split
    · split
      · exact goesOnSound_fault _
      · have hread := chargeRead_sound (disturb_sound (withGranted_sound ht none) (Config.blockWords * block)
          Config.blockWords one two) k block
        exact goesOnSound_next (slotWork_sound (sound_congr (view_deliver _ i block _) hread) i)
    · exact goesOnSound_next hs
  · exact goesOnSound_next hs

/-! ### The resets and the host port -/

/-- With no job, no write, no holder and no reference, the windows and the bytes are all there is to soundness. -/
theorem quiet_sound (hwindows : t.windowsSound) (hidle : ∀ k, noJob (t.image k).state)
    (hrefs : ∀ k, (t.image k).fields.references = 0) (hjobs : t.jobs = []) (hblocks : t.engineBlocks = 0)
    (hwrite : writeSound t) (hstore : t.storeSound) (hheld : ∀ i, held (t.slot i) = none) : Sound t where
  windows := hwindows
  references k := ⟨(hrefs k).trans (holders_eq_zero hheld k).symm, fun h => absurd (holders_eq_zero hheld k) h⟩
  jobs := by
    rw [jobsListed_iff, hjobs, hblocks]
    exact ⟨List.nodup_nil, Nat.zero_le _, fun job =>
      iff_of_false (List.not_mem_nil) (jobState_ne (hidle (jobImage job)) job)⟩
  write := hwrite
  store := hstore
  grips i := gripSound_of_held_none (hheld i)

theorem held_atPowerOn (x : Slot) (fitted isOpen : Bool) (ceiling : Nat) :
    held (x.atPowerOn fitted isOpen ceiling) = none := by
  refine held_of_inFlight_none ?_
  unfold Slot.atPowerOn
  dsimp only
  split <;> rfl

theorem held_atRestart (x : Slot) (fitted isOpen : Bool) (ceiling : Nat) (now : Count) :
    held (x.atRestart fitted isOpen ceiling now) = none := by
  refine held_of_inFlight_none ?_
  unfold Slot.atRestart
  dsimp only
  split <;> rfl

theorem powerUp_sound (s : State) (banks ceiling : Bool) : Sound (s.powerUp banks ceiling) := by
  refine placeSlots_sound ?_
  set b := s.blank banks ceiling with hb
  have hk := modSlots_keeps b fun i x => x.atPowerOn (b.straps.fitted i) (b.drawerOpen i) b.straps.ceiling
  set t := b.modSlots fun i x => x.atPowerOn (b.straps.fitted i) (b.drawerOpen i) b.straps.ceiling with ht
  have himage (k : ImageId) : t.image k = Image.initial := by
    have h : t.images = Vector.replicate 8 Image.initial := hk .images (by decide)
    simp [State.image, h, Vector.get]
  have hport : t.port = ⟨false, none, false⟩ := hk .port (by decide)
  obtain ⟨hstore, hlost⟩ := hk .store (by decide)
  obtain ⟨hjobs, hblocks⟩ := hk .jobs (by decide)
  refine quiet_sound ?_ (fun k => ?_) (fun k => ?_) hjobs hblocks (fun _ _ _ _ _ hp => ?_) ?_ fun i => ?_
  · refine (windowsSound_iff t).mpr ⟨fun k => ?_, fun k l _ => ?_⟩ <;> rw [himage]
    · exact ⟨rfl, Nat.zero_le _, Nat.zero_le _⟩
    · exact absent_apart rfl
  · rw [himage]
    exact noJob_of_free rfl
  · rw [himage]
    rfl
  · rw [hport] at hp
    cases hp
  · rw [State.storeSound, hstore, hlost]
    exact ⟨rfl, rfl⟩
  · rw [ht, slot_modSlots]
    exact held_atPowerOn _ _ _ _

/-- What RESTART leaves of a record: the window of a READY or DAMAGED image, and no reference (R119, R193). -/
theorem atRestart_cases (x : Image) :
    (x.atRestart = { x with fields := { x.fields with references := 0 } } ∧ (x.state = .ready ∨ x.state = .damaged)) ∨
      x.atRestart = { x with state := .free, fields := ImageFields.absent } := by
  unfold Image.atRestart
  split
  · next h => exact .inl ⟨rfl, .inl h⟩
  · next h => exact .inl ⟨rfl, .inr h⟩
  · exact .inr rfl

theorem restartSlots_sound (hs : Sound s) (hhold : s.port.intakeHold = true) : Sound s.restartSlots := by
  refine placeSlots_sound ?_
  have hk := modSlots_keeps s.sweep fun i x =>
    x.atRestart (s.straps.fitted i) (s.drawerOpen i) s.straps.ceiling s.now
  set t := s.sweep.modSlots fun i x => x.atRestart (s.straps.fitted i) (s.drawerOpen i) s.straps.ceiling s.now with ht
  have himage (k : ImageId) : t.image k = (s.image k).atRestart := by
    have h : t.images = s.images.map Image.atRestart := hk .images (by decide)
    simp [State.image, h, Vector.get]
  have hport : t.port = s.port := hk .port (by decide)
  obtain ⟨hstore, hlost⟩ := hk .store (by decide)
  obtain ⟨hjobs, hblocks⟩ := hk .jobs (by decide)
  obtain ⟨hfits, hapart⟩ := (windowsSound_iff s).mp hs.windows
  refine quiet_sound ?_ (fun k => ?_) (fun k => ?_) hjobs hblocks (fun tag k offset data discard hp => ?_) ?_ fun i => ?_
  · refine (windowsSound_iff t).mpr ⟨fun k => ?_, fun k l hkl => ?_⟩
    · rw [himage]
      rcases atRestart_cases (s.image k) with ⟨h, -⟩ | h <;> rw [h]
      · exact hfits k
      · exact ⟨rfl, Nat.zero_le _, Nat.zero_le _⟩
    · rw [himage, himage]
      rcases atRestart_cases (s.image k) with ⟨h, -⟩ | h <;> rw [h]
      · rcases atRestart_cases (s.image l) with ⟨h, -⟩ | h <;> rw [h]
        · exact hapart k l hkl
        · exact apart_symm (absent_apart rfl)
      · exact absent_apart rfl
  · rw [himage]
    rcases atRestart_cases (s.image k) with ⟨h, hst⟩ | h <;> rw [h]
    · change noJob (s.image k).state
      rcases hst with hst | hst <;> rw [hst] <;> exact ⟨ImageState.noConfusion, ImageState.noConfusion⟩
    · exact noJob_of_free rfl
  · rw [himage]
    rcases atRestart_cases (s.image k) with ⟨h, -⟩ | h <;> rw [h]
    rfl
  · obtain ⟨-, -, -, hno⟩ := hs.write tag k offset data discard (hport ▸ hp)
    rw [hhold] at hno
    cases hno
  · rw [State.storeSound, hstore, hlost]
    exact hs.store
  · rw [ht, slot_modSlots]
    exact held_atRestart _ _ _ _ _

theorem restartEffects_sound (hs : Sound s) (hhold : s.port.intakeHold = true) : Sound s.restartEffects := by
  have hslots := restartSlots_sound hs hhold
  rw [State.restartEffects]
  generalize s.restartSlots = t at hslots ⊢
  refine withPort_sound hslots fun tag k offset data discard hp => ?_
  obtain ⟨hdata, hfit, hstate, -⟩ := hslots.write tag k offset data discard hp
  exact ⟨hdata, hfit, hstate, rfl⟩

theorem receiptSent_sound (hs : Sound s) : goesOnSound (execReceiptSent s) := by
  refine goesOnSound_next ?_
  split
  · next r rest _ _ =>
    have hsent : Sound { s with uplink := { s.uplink.freed with receipts := rest } } := sound_congr (s := s) rfl hs
    refine sound_congr (view_arbitrate _) ?_
    split
    · next hends =>
      simp only [Receipt.endsRestart, Bool.and_eq_true] at hends
      exact restartEffects_sound hsent hends.2
    · exact hsent
  · exact hs

theorem view_detachOperations (s : State) : view s.detachOperations = view s :=
  view_of_keepsBut (FanOut.detachOperations_keeps s) fun i => by
    rw [FanOut.slot_detachOperations]
    rfl

/-- A write in progress goes on after a host port detach (R190). -/
theorem detached_write {p : Option InProgress} {offset : Nat} {data : List Byte} {discard : Bool}
    (h : p.bind InProgress.detached = some (.imageWrite tag k offset data discard)) :
    ∃ before, p = some (.imageWrite tag k offset data before) := by
  cases p with
  | none => cases h
  | some q =>
    cases q with
    | imageWrite t l o d b =>
      simp only [Option.bind_some, InProgress.detached, Option.some.injEq, InProgress.imageWrite.injEq] at h
      obtain ⟨rfl, rfl, rfl, rfl, -⟩ := h
      exact ⟨b, rfl⟩
    | openBridge => cases h

theorem detachPort_sound (hs : Sound s) : Sound s.detachPort := by
  have hport : Sound { s with
      port := { configured := false, inProgress := s.port.inProgress.bind InProgress.detached, intakeHold := false } } := by
    refine withPort_sound hs fun tag k offset data discard hp => ?_
    obtain ⟨before, hbefore⟩ := detached_write hp
    obtain ⟨hdata, hfit, hstate, -⟩ := hs.write tag k offset data before hbefore
    exact ⟨hdata, hfit, hstate, rfl⟩
  refine sound_foldl (fun u i hu => ?_) _ (sound_congr ((view_detachOperations _).trans (view_modSlots _ ?_))
    (sound_congr (s := { s with
      port := { configured := false, inProgress := s.port.inProgress.bind InProgress.detached, intakeHold := false } })
      rfl hport))
  · split
    · next hbridge => exact leaveBridge_sound hu hbridge
    · exact hu
  · exact fun _ _ => rfl

end Sys2Proof.Machine.ImageStore
end

section
/-! PROOF. Every command keeps the image store sound, and so every step does. -/

namespace Sys2Proof.Machine.ImageStore

open Tables

variable {s t u : State} {tag : Tag} {kind : Byte}

/-! ### The port, the slots and the queries -/

/-- A request that keeps the view, whatever its fields, keeps the store sound. -/
theorem requestWith_view_sound {α : Type} (hs : Sound s) {body : Body α} {run : α → State → State}
    (h : ∀ f, view (run f s) = view s) : goesOnSound (.next (s.requestWith tag kind body run)) :=
  goesOnSound_next (requestWith_sound hs fun f _ => sound_congr (h f) hs)

theorem malformedTransfer_sound (hs : Sound s) (bytes : List Byte) : goesOnSound (execMalformedTransfer bytes s) := by
  refine goesOnSound_next (request_sound hs fun _ => ?_)
  split
  · exact answer_sound hs _ _ _ _ _
  · exact hs

theorem restart_sound (hs : Sound s) (body : Body Unit) : goesOnSound (execRestart tag body s) := by
  refine goesOnSound_next (requestWith_sound hs fun _ hopen => answer_sound ?_ _ _ _ _ _)
  refine withPort_sound_of_no_write hs fun _ _ _ _ _ hp => ?_
  cases (idle_of_intakeOpen hopen).1.symm.trans hp

theorem grip_writeCeiling (x : Slot) (f : ProfileFields) (ceiling : Nat) : grip (x.writeCeiling f ceiling) = grip x := by
  unfold Slot.writeCeiling
  generalize profileHas f 0 = present
  cases present
  · rfl
  · generalize hv : clampTo 0 ceiling f.rateCeiling.toNat = v
    dsimp only
    split
    · split <;> rfl
    · rfl

theorem grip_applyBudget (x : Slot) : grip x.applyBudget = grip x := by
  unfold Slot.applyBudget
  split
  · rfl
  · rfl

theorem grip_writeProfile (x : Slot) (f : ProfileFields) (ceiling : Nat) : grip (x.writeProfile f ceiling) = grip x := by
  have h := grip_writeCeiling { x with profile := x.profile.write f } f ceiling
  unfold Slot.writeProfile
  dsimp only
  split
  · exact (grip_applyBudget _).trans h
  · exact h

theorem view_setProfile (s : State) (f : ProfileFields) (l : List SlotId) :
    view (l.foldl (fun s i => s.modSlot i fun x => x.writeProfile f s.straps.ceiling) s) = view s := by
  exact view_foldl (fun s i => view_modSlot s i (grip_writeProfile _ f s.straps.ceiling)) l s

theorem setProfile_sound (hs : Sound s) (body : Body ProfileFields) : goesOnSound (execSetProfile tag body s) := by
  refine requestWith_view_sound hs fun f => ?_
  split
  · exact view_answer _ _ _ _ _ _
  split
  · exact view_answer _ _ _ _ _ _
  · exact (view_answer _ _ _ _ _ _).trans (view_setProfile s f _)

theorem actOn_sound {allows : Slot → Bool} {act : State → SlotId → State}
    (h : ∀ u i, Sound u → allows (u.slot i) = true → Sound (act u i)) (l : List SlotId) (hs : Sound s) :
    Sound (s.actOn allows act l).1 := by
  induction l generalizing s with
  | nil => exact hs
  | cons i rest ih =>
    unfold State.actOn
    split
    · next hallows => exact ih (h s i hs hallows)
    · exact ih hs

/-- A request that acts on the slots of a set keeps the store sound when its action on each slot does. -/
theorem control_sound (hs : Sound s) (set : SlotSet) (mask : Half) {allows : Slot → Bool} {act : State → SlotId → State}
    (h : ∀ u i, Sound u → allows (u.slot i) = true → Sound (act u i)) :
    Sound (s.control tag kind set mask allows act) := by
  unfold State.control
  split
  · exact answer_sound hs _ _ _ _ _
  · exact answer_sound (actOn_sound h _ hs) _ _ _ _ _

theorem slotControl_sound (hs : Sound s) (body : Body SlotSet) {allows : Slot → Bool} {act : State → SlotId → State}
    (h : ∀ u i, Sound u → allows (u.slot i) = true → Sound (act u i)) :
    goesOnSound (.next (s.slotControl tag body allows act)) :=
  goesOnSound_next (requestWith_sound hs fun set _ => control_sound hs set 0 h)

theorem powerOn_sound (hs : Sound s) (body : Body SlotSet) : goesOnSound (execPowerOn tag body s) :=
  slotControl_sound hs body fun u i hu hoff => by
    have hheld : held (u.slot i) = none :=
      held_of_state (hu.grips i) (by rw [eq_of_beq hoff]; exact SlotState.noConfusion)
    refine enterPowering_sound (sound_congr (view_modSlot u i rfl) hu) ?_
    rw [State.slot_modSlot_same]
    exact hheld

theorem cycle_sound (hs : Sound s) (body : Body SlotSet) : goesOnSound (execCycle tag body s) :=
  slotControl_sound hs body fun _ i hu _ => enterRecovering_sound (stopSlot_sound hu i _ _) i _

theorem resetSlot_sound (hs : Sound s) (body : Body SlotSet) : goesOnSound (execResetSlot tag body s) :=
  slotControl_sound hs body fun _ i hu _ => sound_congr (view_modSlot _ i rfl) (stopSlot_sound hu i _ _)

theorem clearFault_command_sound (hs : Sound s) (body : Body SlotSet) : goesOnSound (execClearFault tag body s) :=
  slotControl_sound hs body fun _ i hu hfault =>
    clearFault_sound hu (held_of_state (hu.grips i) (by rw [eq_of_beq hfault]; exact SlotState.noConfusion))

theorem disable_sound (hs : Sound s) (body : Body SlotSet) : goesOnSound (execDisable tag body s) :=
  slotControl_sound hs body fun u i hu _ => by
    have hset : Sound (u.modSlot i fun x => { x with disabled := true }) := sound_congr (view_modSlot u i rfl) hu
    dsimp only
    split
    · exact hset
    · exact enterInhibited_sound hset i _

theorem enable_sound (hs : Sound s) (body : Body SlotSet) : goesOnSound (execEnable tag body s) :=
  slotControl_sound hs body fun u i hu _ => by
    have hset : Sound (u.modSlot i fun x => { x with disabled := false }) := sound_congr (view_modSlot u i rfl) hu
    dsimp only
    split
    · next h =>
      simp only [Bool.and_eq_true, decide_eq_true_eq] at h
      refine leaveInhibited_sound hset ?_
      rw [State.slot_modSlot_same]
      exact held_of_state (hu.grips i) (by rw [h.1]; exact SlotState.noConfusion)
    · exact hset

theorem query_sound {unfitted : Bool} {c : ResultCode} {reply : Reply} :
    view (if unfitted = true then s.answer tag kind c else s.answer tag kind .accepted 0 reply) = view s := by
  split <;> exact view_answer _ _ _ _ _ _

theorem pressKey_sound (hs : Sound s) (body : Body PressKeyFields) : goesOnSound (execPressKey tag body s) :=
  goesOnSound_next (requestWith_sound hs fun f _ =>
    control_sound hs f.set _ fun u i hu _ => sound_congr (view_modSlot u i rfl) hu)

/-! ### Tables and events -/

theorem defineGroup_sound (hs : Sound s) (body : Body GroupFields) : goesOnSound (execDefineGroup tag body s) := by
  refine requestWith_view_sound hs fun f => ?_
  split
  · exact view_answer _ _ _ _ _ _
  split
  · exact view_answer _ _ _ _ _ _
  · exact view_answer (s.setGroup _ _) _ _ _ _ _

theorem undefineGroup_sound (hs : Sound s) (body : Body GroupFields) : goesOnSound (execUndefineGroup tag body s) := by
  refine requestWith_view_sound hs fun f => ?_
  split
  · exact view_answer _ _ _ _ _ _
  · exact view_answer (s.setGroup _ _) _ _ _ _ _

theorem setFixtureLoad_sound (hs : Sound s) (body : Body (Vector Byte 24)) :
    goesOnSound (execSetFixtureLoad tag body s) := by
  refine requestWith_view_sound hs fun codes => ?_
  split
  · exact view_answer _ _ _ _ _ _
  split
  · exact view_answer _ _ _ _ _ _
  · exact view_answer { s with fixture := some codes } _ _ _ _ _

theorem setTranslation_sound (hs : Sound s) (body : Body TranslationFields) :
    goesOnSound (execSetTranslation tag body s) := by
  refine requestWith_view_sound hs fun f => ?_
  split
  · exact view_answer _ _ _ _ _ _
  split
  · exact view_answer _ _ _ _ _ _
  split
  · exact view_answer _ _ _ _ _ _
  · exact (view_answer _ _ _ _ _ _).trans (view_foldl (fun s i => view_modSlot s i rfl) _ s)

theorem readEvents_sound (hs : Sound s) (body : Body SlotSet) : goesOnSound (execReadEvents tag body s) := by
  refine requestWith_view_sound hs fun set => ?_
  split
  · exact view_answer _ _ _ _ _ _
  · exact (view_answer _ _ _ _ _ _).trans (view_foldl (fun s i => view_modSlot s i rfl) _ s)

theorem setNoticeMask_sound (hs : Sound s) (body : Body Half) : goesOnSound (execSetNoticeMask tag body s) := by
  refine requestWith_view_sound hs fun m => ?_
  split
  · exact view_answer _ _ _ _ _ _
  · exact (view_foldl (fun s i => view_noticeIfPending s i _) _ _).trans
      (view_answer { s with noticeMask := m.setWidth 8 } _ _ _ _ _)

/-! ### Operations -/

theorem cancel_sound (hs : Sound s) (body : Body Tag) : goesOnSound (execCancel tag body s) := by
  refine requestWith_view_sound hs fun target => ?_
  split
  · exact view_answer _ _ _ _ _ _
  split
  · exact (view_complete _ _ _).trans ((view_cancelMembers _ _ _).trans (view_answer _ _ _ _ _ _))
  · exact view_answer _ _ _ _ _ _

/-- A report leaves the slot's channel, and ends at most a member. -/
theorem popReport_sound (hs : Sound s) (i : SlotId) (tag : Tag) (admits : MemberStatus → Bool)
    (st : Operation → Member → MemberStatus) : Sound ((s.popReport i).endMember tag i admits st) :=
  sound_congr ((view_endMember _ i _ _ _).trans (view_popReport s i)) hs

/-! ### The uplink -/

theorem gatherReportSent_sound (hs : Sound s) : goesOnSound (execGatherReportSent s) := by
  refine goesOnSound_next ?_
  split
  · exact sound_congr (view_arbitrate _) (sound_congr (s := s) rfl hs)
  · exact hs

theorem bridgeOutSent_sound (hs : Sound s) : goesOnSound (execBridgeOutSent s) := by
  refine goesOnSound_next ?_
  split
  · next m rest _ _ =>
    refine sound_congr ((view_arbitrate _).trans ((view_buildBridgeOut _ m.slot true).trans (view_modSlot _ m.slot rfl))) ?_
    exact sound_congr (s := s) rfl hs
  · exact hs

theorem noticeBegun_sound (hs : Sound s) : goesOnSound (execNoticeBegun s) := by
  refine goesOnSound_next ?_
  split
  · next i rest _ =>
    split
    · exact sound_congr (view_modSlot _ i rfl) (sound_congr (s := s) rfl hs)
    · exact hs
  · exact hs

/-! ### The console and the bridge -/

theorem onSlot_sound (hs : Sound s) {number : Byte} {run : SlotId → State} (h : ∀ i, Sound (run i)) :
    Sound (s.onSlot tag kind number run) := by
  unfold State.onSlot
  split
  · exact answer_sound hs _ _ _ _ _
  · exact h _

theorem readConsole_sound (hs : Sound s) (body : Body Byte) : goesOnSound (execReadConsole tag body s) := by
  refine goesOnSound_next (requestWith_sound hs fun _ _ => onSlot_sound hs fun i => ?_)
  split
  · exact answer_sound hs _ _ _ _ _
  · exact answer_sound (sound_congr (view_modSlot s i rfl) hs) _ _ _ _ _

theorem openBridge_sound (hs : Sound s) (body : Body OpenBridgeFields) : goesOnSound (execOpenBridge tag body s) := by
  refine goesOnSound_next (requestWith_sound hs fun f _ => ?_)
  split
  · exact answer_sound hs _ _ _ _ _
  · refine onSlot_sound hs fun i => ?_
    split
    · exact answer_sound hs _ _ _ _ _
    · next hready =>
      split
      · exact withPort_sound_of_no_write hs fun _ _ _ _ _ hp => by cases hp
      · have hstate : (s.slot i).state = .ready := by simpa using hready
        have hheld := held_of_state (hs.grips i) (by rw [hstate]; exact SlotState.noConfusion)
        exact answer_sound (openBridgeOn_sound hs hheld _) _ _ _ _ _

theorem bridgeData_sound (hs : Sound s) (body : Body BridgeDataFields) : goesOnSound (execBridgeData tag body s) := by
  refine goesOnSound_next (requestWith_sound hs fun f _ => ?_)
  split
  · exact answer_sound hs _ _ _ _ _
  split
  · exact answer_sound hs _ _ _ _ _
  · refine onSlot_sound hs fun i => ?_
    dsimp only
    split
    · exact answer_sound hs _ _ _ _ _
    split
    · exact answer_sound hs _ _ _ _ _
    · exact answer_sound (sound_congr (view_modSlot s i rfl) hs) _ _ _ _ _

theorem closeBridge_sound (hs : Sound s) (body : Body Byte) : goesOnSound (execCloseBridge tag body s) := by
  refine goesOnSound_next (requestWith_sound hs fun _ _ => onSlot_sound hs fun i => ?_)
  split
  · exact answer_sound hs _ _ _ _ _
  · next h => exact answer_sound (leaveBridge_sound hs (by simpa using h)) _ _ _ _ _

theorem bridgeIdleTimerExpiry_sound (hs : Sound s) (i : SlotId) : goesOnSound (execBridgeIdleTimerExpiry i s) := by
  refine goesOnSound_next ?_
  split
  · next h =>
    simp only [Bool.and_eq_true, decide_eq_true_eq] at h
    exact leaveBridge_sound hs h.1
  · exact hs

theorem breakEnd_sound (hs : Sound s) (i : SlotId) : goesOnSound (execBreakEnd i s) := by
  refine goesOnSound_next ?_
  split
  · exact sound_congr (view_modSlot s i (grip_transmit _)) hs
  · exact hs

theorem rawByteReceived_sound (hs : Sound s) (i : SlotId) (byte : Byte) : goesOnSound (execRawByteReceived i byte s) := by
  refine goesOnSound_next ?_
  split
  · exact sound_congr ((view_buildBridgeOut _ i _).trans (view_modSlot s i (grip_pushBytes [byte] _))) hs
  split
  · exact takeByte_sound hs i byte
  · exact hs

theorem bridgeOutGatheringExpiry_sound (hs : Sound s) (i : SlotId) : goesOnSound (execBridgeOutGatheringExpiry i s) := by
  refine goesOnSound_next ?_
  split
  · split
    · exact sound_congr (view_queueBridgeOut s i) hs
    · exact sound_congr (view_modSlot s i rfl) hs
  · exact hs

theorem bridgeByteSent_sound (hs : Sound s) (i : SlotId) : goesOnSound (execBridgeByteSent i s) := by
  refine goesOnSound_next ?_
  split
  · exact sound_congr (view_modSlot s i rfl) hs
  · exact hs

/-! ### Inputs, timers and current supervision -/

theorem presenceDebounceExpiry_sound (hs : Sound s) (i : SlotId) : goesOnSound (execPresenceDebounceExpiry i s) := by
  have hsettled : Sound (s.modSlot i fun x => { x with present := x.contact, debounce := none }) :=
    sound_congr (view_modSlot s i rfl) hs
  refine goesOnSound_next ?_
  split
  · dsimp only
    split
    · exact hsettled
    split
    · exact raiseAttach_sound hsettled i
    · exact takeDetach_sound hsettled i
  · exact hs

theorem interlockSettleExpiry_sound (hs : Sound s) (bank : Bank) : goesOnSound (execInterlockSettleExpiry bank s) := by
  refine goesOnSound_next ?_
  split
  · refine sound_foldl (fun u i hu => ?_) _ (sound_congr (view_setInterlock s bank _) hs)
    split
    · exact openDrawer_sound hu i
    · exact closeDrawer_sound hu i
  · exact hs

theorem settleTimerExpiry_sound (hs : Sound s) (i : SlotId) : goesOnSound (execSettleTimerExpiry i s) := by
  refine goesOnSound_next ?_
  split
  · next h =>
    simp only [Bool.and_eq_true, decide_eq_true_eq] at h
    exact enterBooting_sound hs (held_of_state (hs.grips i) (by rw [h.1]; exact SlotState.noConfusion))
  · exact hs

theorem recoveryOffTimerExpiry_sound (hs : Sound s) (i : SlotId) : goesOnSound (execRecoveryOffTimerExpiry i s) := by
  refine goesOnSound_next ?_
  split
  · next h =>
    simp only [Bool.and_eq_true, decide_eq_true_eq] at h
    exact enterPowering_sound hs (held_of_state (hs.grips i) (by rw [h.1]; exact SlotState.noConfusion))
  · exact hs

theorem keyPressExpiry_sound (hs : Sound s) (i : SlotId) : goesOnSound (execKeyPressExpiry i s) := by
  refine goesOnSound_next ?_
  split
  · exact sound_congr (view_modSlot s i rfl) hs
  · exact hs

theorem blankingWindowExpiry_sound (hs : Sound s) (i : SlotId) : goesOnSound (execBlankingWindowExpiry i s) := by
  refine goesOnSound_next ?_
  split
  · exact sound_congr (view_modSlot s i rfl) hs
  · exact hs

theorem grip_withPower (x : Slot) (p : PowerRecord) : grip { x with power := p } = grip x := rfl

theorem grip_tripWith (x : Slot) (accumulator : Nat) (trip : Trip) (cause : FaultCause) (v : Nat) :
    grip (x.tripWith accumulator trip cause v) = grip x := rfl

theorem grip_takeSample (x : Slot) (now : Count) (v : Nat) : grip (x.takeSample now v) = grip x := by
  have hadd : grip { x with power := x.power.addSample v } = grip x := grip_withPower x _
  unfold Slot.takeSample
  dsimp only
  split
  · exact hadd
  split
  · exact (grip_tripWith _ _ _ _ _).trans hadd
  split
  · exact hadd
  split
  · exact (grip_tripWith _ _ _ _ _).trans hadd
  · exact grip_withPower x _

theorem currentSample_sound (hs : Sound s) (i : SlotId) (milliamps : Nat) :
    goesOnSound (execCurrentSample i milliamps s) := by
  refine goesOnSound_next ?_
  split
  · exact sound_congr (view_modSlot s i (grip_takeSample _ _ _)) hs
  · exact hs

theorem faultRequest_sound (hs : Sound s) (i : SlotId) : goesOnSound (execFaultRequest i s) := by
  refine goesOnSound_next ?_
  split
  · exact hs
  · exact takeFaultRequest_sound (sound_congr (view_modSlot s i rfl) hs) i _

/-! ### The slot link -/

theorem rateExchangeWaitExpiry_sound (hs : Sound s) (i : SlotId) : goesOnSound (execRateExchangeWaitExpiry i s) := by
  refine goesOnSound_next ?_
  split
  · next e hdue =>
    have hex : (s.slot i).link.exchange = some e := by
      unfold Slot.dueExchange at hdue
      split at hdue
      · next hex =>
        split at hdue
        · rw [hex, hdue]
        · cases hdue
      · cases hdue
    split
    · next hboot => exact becomeReady_sound hs (held_of_boot (hs.grips i) (by rw [hex, Option.map_some, hboot]))
    · exact enterFault_sound hs i _ _
  · exact hs

theorem formatError_command_sound (hs : Sound s) (i : SlotId) (f : Frame) : goesOnSound (execFormatError i f s) := by
  refine goesOnSound_next ?_
  split
  · exact hs
  · exact receive_sound hs i f false (fun _ hu => hu) fun _ hu => hu

theorem receiverStallExpiry_sound (hs : Sound s) (i : SlotId) : goesOnSound (execReceiverStallExpiry i s) := by
  refine goesOnSound_next ?_
  split
  · exact crcError_sound hs i
  · exact hs

theorem sequenceErrorFrame_sound (hs : Sound s) (i : SlotId) (seq : Byte) :
    goesOnSound (execSequenceErrorFrame i seq s) := by
  refine goesOnSound_next ?_
  split
  · dsimp only
    split
    · exact hunt_sound hs i
    · exact sequenceError_sound (hunt_sound hs i) i seq
  · exact hs

/-! ### Deadlines and what the engines take -/

theorem damageStop_sound (hs : Sound s) (i : SlotId) : goesOnSound (execDamageStop i s) := by
  refine goesOnSound_next ?_
  split
  · exact hs
  · next d rest _ =>
    have htaken : Sound (s.modSlot i fun x => { x with damageStops := rest }) := sound_congr (view_modSlot s i rfl) hs
    dsimp only
    split
    · exact abortWith_sound htaken i _
    · exact htaken

theorem memberWindowExpiry_sound (hs : Sound s) (i : SlotId) : goesOnSound (execMemberWindowExpiry i s) := by
  refine goesOnSound_next ?_
  split
  · exact abortWith_sound hs i _
  · exact hs

theorem queueLimitExpiry_sound (hs : Sound s) (i : SlotId) : goesOnSound (execQueueLimitExpiry i s) := by
  refine goesOnSound_next ?_
  split
  · exact slotWork_sound (sound_congr (view_modSlot s i rfl) hs) i
  · exact hs

theorem abortWaitExpiry_sound (hs : Sound s) (i : SlotId) : goesOnSound (execAbortWaitExpiry i s) := by
  refine goesOnSound_next ?_
  split
  · exact recoveryDecision_sound (modSlot_sound_of_held_none (releaseReference_sound hs i) (held_releaseReference s i)
      (held_of_inFlight_none rfl)) i _ _
  · exact hs

theorem append_sound (hs : Sound s) (i : SlotId) : goesOnSound (execAppend i s) := by
  refine goesOnSound_next ?_
  split
  · exact takeRequest_sound hs i
  · exact hs

theorem withdraw_sound (hs : Sound s) (i : SlotId) : goesOnSound (execWithdraw i s) := by
  refine goesOnSound_next ?_
  split
  · exact takeRequest_sound hs i
  · exact hs

theorem startReport_sound (hs : Sound s) (i : SlotId) : goesOnSound (execStartReport i s) := by
  refine goesOnSound_next ?_
  split
  · exact sound_congr ((view_modOp _ _ _).trans (view_popReport s i)) hs
  · exact hs

theorem resultReport_sound (hs : Sound s) (i : SlotId) : goesOnSound (execResultReport i s) := by
  refine goesOnSound_next ?_
  split
  · exact popReport_sound hs i _ _ _
  · exact hs

theorem windowExpiryReport_sound (hs : Sound s) (i : SlotId) : goesOnSound (execWindowExpiryReport i s) := by
  refine goesOnSound_next ?_
  split
  · exact popReport_sound hs i _ _ _
  · exact hs

theorem queueLimitReport_sound (hs : Sound s) (i : SlotId) : goesOnSound (execQueueLimitReport i s) := by
  refine goesOnSound_next ?_
  split
  · exact popReport_sound hs i _ _ _
  · exact hs

theorem dropReport_sound (hs : Sound s) (i : SlotId) : goesOnSound (execDropReport i s) := by
  refine goesOnSound_next ?_
  split
  · exact popReport_sound hs i _ _ _
  · exact hs

theorem streamDamageReport_sound (hs : Sound s) (i : SlotId) : goesOnSound (execStreamDamageReport i s) := by
  refine goesOnSound_next ?_
  split
  · exact popReport_sound hs i _ _ _
  · exact hs

/-! ### Every command -/

/-- Every command keeps the image store sound. -/
theorem exec_sound (hs : Sound s) (c : Instr) : goesOnSound (exec c s) := by
  cases c with
  | powerOnReset banks ceiling => exact goesOnSound_next (powerUp_sound s banks ceiling)
  | hostPortConfigured =>
    exact goesOnSound_next (sound_congr (view_arbitrate _)
      (withPort_sound hs fun tag k offset data discard hp => hs.write tag k offset data discard hp))
  | hostPortDetach =>
    refine goesOnSound_next ?_
    split
    · exact detachPort_sound hs
    · exact hs
  | malformedTransfer bytes => exact malformedTransfer_sound hs bytes
  | identify tag body => exact requestWith_view_sound hs fun _ => view_answer _ _ _ _ _ _
  | restart tag body => exact restart_sound hs body
  | setProfile tag body => exact setProfile_sound hs body
  | powerOn tag body => exact powerOn_sound hs body
  | powerOff tag body => exact slotControl_sound hs body fun _ i hu _ => stopSlot_sound hu i _ _
  | cycle tag body => exact cycle_sound hs body
  | resetSlot tag body => exact resetSlot_sound hs body
  | clearFault tag body => exact clearFault_command_sound hs body
  | disable tag body => exact disable_sound hs body
  | enable tag body => exact enable_sound hs body
  | querySlots tag body => exact requestWith_view_sound hs fun _ => query_sound
  | defineGroup tag body => exact defineGroup_sound hs body
  | undefineGroup tag body => exact undefineGroup_sound hs body
  | setFixtureLoad tag body => exact setFixtureLoad_sound hs body
  | setFixtureClear tag body =>
    exact requestWith_view_sound hs fun _ => view_answer { s with fixture := none } _ _ _ _ _
  | setTranslation tag body => exact setTranslation_sound hs body
  | direct tag body => exact goesOnSound_next (requestWith_sound hs fun f _ => operate_sound hs tag _ f.op _)
  | push tag body => exact goesOnSound_next (requestWith_sound hs fun f _ => operate_sound hs tag _ f.op _)
  | cancel tag body => exact cancel_sound hs body
  | queryOperations tag body => exact requestWith_view_sound hs fun _ => view_answer _ _ _ _ _ _
  | imageDefine tag body => exact imageDefine_sound hs body
  | imageWrite tag body => exact imageWrite_sound hs body
  | imageWriteAccessDone one two => exact imageWriteAccessDone_sound hs one two
  | imageCommit tag body => exact imageCommit_sound hs body
  | imageRelease tag body => exact imageRelease_sound hs body
  | imageQuery tag body => exact requestWith_view_sound hs fun _ => view_answer _ _ _ _ _ _
  | measure tag body => exact requestWith_view_sound hs fun _ => query_sound
  | pressKey tag body => exact pressKey_sound hs body
  | readConsole tag body => exact readConsole_sound hs body
  | openBridge tag body => exact openBridge_sound hs body
  | bridgeData tag body => exact bridgeData_sound hs body
  | closeBridge tag body => exact closeBridge_sound hs body
  | readEvents tag body => exact readEvents_sound hs body
  | setNoticeMask tag body => exact setNoticeMask_sound hs body
  | receiptSent => exact receiptSent_sound hs
  | gatherReportSent => exact gatherReportSent_sound hs
  | bridgeOutSent => exact bridgeOutSent_sound hs
  | noticeBegun => exact noticeBegun_sound hs
  | presenceContactChange i => exact goesOnSound_next (sound_congr (view_modSlot s i rfl) hs)
  | presenceDebounceExpiry i => exact presenceDebounceExpiry_sound hs i
  | interlockInputChange bank => exact goesOnSound_next (sound_congr (view_setInterlock s bank _) hs)
  | interlockSettleExpiry bank => exact interlockSettleExpiry_sound hs bank
  | settleTimerExpiry i => exact settleTimerExpiry_sound hs i
  | bootAllowanceExpiry i => exact goesOnSound_next (allowanceEnded_sound hs i .boot)
  | resyncAllowanceExpiry i => exact goesOnSound_next (allowanceEnded_sound hs i .resync)
  | recoveryOffTimerExpiry i => exact recoveryOffTimerExpiry_sound hs i
  | hello i detector => exact goesOnSound_next (receive_sound hs i _ detector (fun _ hu => hu) fun _ hu => hu)
  | linkAck i =>
    exact goesOnSound_next (receive_sound hs i _ false (fun _ hu => hu) fun _ hu => takeLinkAck_sound hu i _)
  | rateExchangeWaitExpiry i => exact rateExchangeWaitExpiry_sound hs i
  | result i =>
    exact goesOnSound_next (receive_sound hs i _ false (fun _ hu => hu) fun _ hu => takeResult_sound hu i _ _)
  | text i =>
    exact goesOnSound_next (receive_sound hs i _ false (fun _ hu => appendText_sound hu i _) fun _ hu =>
      appendText_sound hu i _)
  | streamCredit i =>
    exact goesOnSound_next (receive_sound hs i _ false (fun _ hu => hu) fun _ hu => takeCredit_sound hu i _)
  | formatError i f => exact formatError_command_sound hs i f
  | crcError i => exact goesOnSound_next (crcError_sound hs i)
  | receiverStallExpiry i => exact receiverStallExpiry_sound hs i
  | linkFrameSent i => exact goesOnSound_next (frameSent_sound hs i _ fun x => grip_startExchangeWait x s.now)
  | abortFrameSent i => exact goesOnSound_next (frameSent_sound hs i _ fun x => grip_startAbortWait x s.now)
  | streamOpenSent i => exact goesOnSound_next (frameSent_sound hs i _ grip_openStream)
  | streamDataSent i => exact goesOnSound_next (frameSent_sound hs i _ grip_chunkSent)
  | streamChunkRead i one two => exact streamChunkRead_sound hs i one two
  | damageStop i => exact damageStop_sound hs i
  | memberWindowExpiry i => exact memberWindowExpiry_sound hs i
  | queueLimitExpiry i => exact queueLimitExpiry_sound hs i
  | abortWaitExpiry i => exact abortWaitExpiry_sound hs i
  | keyPressExpiry i => exact keyPressExpiry_sound hs i
  | blankingWindowExpiry i => exact blankingWindowExpiry_sound hs i
  | currentSample i milliamps => exact currentSample_sound hs i milliamps
  | faultRequest i => exact faultRequest_sound hs i
  | bridgeIdleTimerExpiry i => exact bridgeIdleTimerExpiry_sound hs i
  | breakEnd i => exact breakEnd_sound hs i
  | rawByteReceived i byte => exact rawByteReceived_sound hs i byte
  | bridgeOutGatheringExpiry i => exact bridgeOutGatheringExpiry_sound hs i
  | bridgeByteSent i => exact bridgeByteSent_sound hs i
  | clearingJobEnd => exact clearingJobEnd_sound hs
  | verificationJobEnd one two => exact verificationJobEnd_sound hs one two
  | append i => exact append_sound hs i
  | withdraw i => exact withdraw_sound hs i
  | startReport i => exact startReport_sound hs i
  | resultReport i => exact resultReport_sound hs i
  | windowExpiryReport i => exact windowExpiryReport_sound hs i
  | queueLimitReport i => exact queueLimitReport_sound hs i
  | dropReport i => exact dropReport_sound hs i
  | streamDamageReport i => exact streamDamageReport_sound hs i
  | sequenceErrorFrame i seq => exact sequenceErrorFrame_sound hs i seq

/-- Settles O59: the slots' soundness gives what each slot holds, and every command keeps that with the rest. -/
theorem stepKeepsImagesSound : Obligations.StepKeepsImagesSound := by
  intro s t hslots himages hstep
  have hs := sound_of_imagesSound hslots himages
  unfold step at hstep
  split at hstep
  · cases hstep
    exact (sound_congr (view_tick s) hs).images
  · next c rest _ =>
    have hrest : Sound { s with pending := rest } := sound_congr (s := s) rfl hs
    exact (exec_sound hrest c t hstep).images

end Sys2Proof.Machine.ImageStore
end

section
/-! PROOF. The store arbiter (6.4): which requester it grants, what each requester waits for, and what the engine's block in
progress does when another access is reported done. -/

namespace Sys2Proof.Machine.StoreArbiter

open ImageStore

variable {s t u : State} {k l : ImageId} {A : List Part}

/-! ### The cycle of positions -/

/-- The state when the requester at a position is granted (R132). -/
def granting (s : State) (p : Fin 26) (g : Grant) : State :=
  let t : State := { s with granted := some g, arbiterPointer := p + 1 }
  match g with
  | .reader i _ _ => t.modSlot i fun x => x.modStream fun r => { r with read := .granted }
  | _ => t

theorem granting_granted (s : State) (p : Fin 26) (g : Grant) : (granting s p g).granted = some g := by
  cases g <;> rfl

theorem granting_pointer (s : State) (p : Fin 26) (g : Grant) : (granting s p g).arbiterPointer = p + 1 := by
  cases g <;> rfl

theorem slot_granting (s : State) (p : Fin 26) (g : Grant) (j : SlotId) :
    (granting s p g).slot j =
      match g with
      | .reader i _ _ => if j = i then (s.slot j).modStream fun r => { r with read := .granted } else s.slot j
      | _ => s.slot j := by
  cases g with
  | writePath => rfl
  | engine => rfl
  | reader i k b =>
    refine (State.slot_modSlot _ i j _).trans ?_
    dsimp only
    split
    · next h => rw [h]; rfl
    · rfl

theorem grantFirst_none {ps : List (Fin 26)} (h : ∀ p ∈ ps, s.storeRequest p = none) : s.grantFirst ps = s := by
  induction ps with
  | nil => rfl
  | cons p rest ih =>
    rw [State.grantFirst, h p List.mem_cons_self]
    exact ih fun q hq => h q (List.mem_cons_of_mem p hq)

theorem grantFirst_cons {p : Fin 26} {g : Grant} (h : s.storeRequest p = some g) (rest : List (Fin 26)) :
    s.grantFirst (p :: rest) = granting s p g := by
  rw [State.grantFirst, h]
  cases g <;> rfl

/-- The first position of a list that waits is the one granted. -/
theorem grantFirst_first {ps : List (Fin 26)} {n : Nat} (hn : n < ps.length) {g : Grant}
    (hbefore : ∀ m (hm : m < n), s.storeRequest ps[m] = none) (hg : s.storeRequest ps[n] = some g) :
    s.grantFirst ps = granting s ps[n] g := by
  induction ps generalizing n with
  | nil => cases hn
  | cons p rest ih =>
    cases n with
    | zero => exact grantFirst_cons hg rest
    | succ n =>
      have hhead : s.storeRequest p = none := hbefore 0 n.succ_pos
      rw [State.grantFirst, hhead]
      exact ih (Nat.lt_of_succ_lt_succ hn) (fun m hm => hbefore (m + 1) (Nat.succ_lt_succ hm)) hg

/-- The positions of the cycle, from one of them on (R132). -/
def cycleFrom (p : Fin 26) : List (Fin 26) := (List.finRange 26).drop p.val ++ (List.finRange 26).take p.val

theorem cycleFrom_eq_rotate (p : Fin 26) : cycleFrom p = (List.finRange 26).rotate p.val :=
  (List.rotate_eq_drop_append_take (by rw [List.length_finRange]; exact p.isLt.le)).symm

theorem cycleFrom_length (p : Fin 26) : (cycleFrom p).length = 26 := by
  rw [cycleFrom_eq_rotate, List.length_rotate, List.length_finRange]

theorem cycleFrom_getElem (p : Fin 26) {n : Nat} (hn : n < (cycleFrom p).length) :
    (cycleFrom p)[n] = p + Fin.ofNat 26 n := by
  simp only [cycleFrom_eq_rotate, List.getElem_rotate, List.getElem_finRange, List.length_finRange]
  ext
  simp only [Fin.val_cast, Fin.val_add, Fin.val_ofNat]
  omega

theorem grant_of_granted (h : s.granted ≠ none) : s.grant = s := by
  rw [State.grant, if_neg]
  rwa [Option.isNone_iff_eq_none]

theorem grant_of_free (h : s.granted = none) : s.grant = s.grantFirst (cycleFrom s.arbiterPointer) := by
  rw [State.grant, if_pos (by rw [h]; rfl)]
  rfl

theorem grant_of_no_request (h : ∀ p, s.storeRequest p = none) : s.grant = s := by
  by_cases hfree : s.granted = none
  · rw [grant_of_free hfree]
    exact grantFirst_none fun p _ => h p
  · exact grant_of_granted hfree

/-- A free store goes to the first requester at or after the pointer (R132). -/
theorem grant_first {n : Nat} {g : Grant} (hfree : s.granted = none) (hn : n < 26)
    (hbefore : ∀ m < n, s.storeRequest (s.arbiterPointer + Fin.ofNat 26 m) = none)
    (hg : s.storeRequest (s.arbiterPointer + Fin.ofNat 26 n) = some g) :
    s.grant = granting s (s.arbiterPointer + Fin.ofNat 26 n) g := by
  have hlt : n < (cycleFrom s.arbiterPointer).length := by rwa [cycleFrom_length]
  rw [grant_of_free hfree, ← cycleFrom_getElem s.arbiterPointer hlt]
  refine grantFirst_first hlt (fun m hm => ?_) ?_
  · rw [cycleFrom_getElem]
    exact hbefore m hm
  · rwa [cycleFrom_getElem]

/-! ### What each requester waits for -/

theorem firstBlock_eq (x : Image) : x.firstBlock = x.fields.base * 512 := by
  change x.fields.base * 262144 / 512 = _
  omega

theorem jobBlocks_clear (s : State) (k : ImageId) : s.jobBlocks (.clear k) = (s.image k).fields.size.units * 512 := by
  simp only [State.jobBlocks, SizeClass.bytes, Config.unitBytes, Config.blockBytes]
  omega

theorem jobBlocks_verify (s : State) (k : ImageId) : s.jobBlocks (.verify k) = ((s.image k).fields.highMark + 511) / 512 := by
  simp only [State.jobBlocks, ceilDiv, Config.blockBytes]
  omega

theorem storeRequest_writePath (s : State) :
    s.storeRequest 0 =
      match s.port.inProgress with
      | some (.imageWrite ..) => some .writePath
      | _ => none := rfl

theorem storeRequest_engine (s : State) : s.storeRequest 1 = if s.engineLeft = 0 then none else some .engine := rfl

/-- The engine waits while the job at the head has blocks to do (R124). -/
theorem storeRequest_engine_eq (s : State) :
    s.storeRequest 1 =
      match s.jobs with
      | [] => none
      | .clear k :: _ => if s.engineBlocks < (s.image k).fields.size.units * 512 then some .engine else none
      | .verify k :: _ => if s.engineBlocks < ((s.image k).fields.highMark + 511) / 512 then some .engine else none := by
  have hleft (n : Nat) : (if n - s.engineBlocks = 0 then none else some Grant.engine) =
      if s.engineBlocks < n then some .engine else none := by
    by_cases h : s.engineBlocks < n
    · rw [if_pos h, if_neg (by omega)]
    · rw [if_neg h, if_pos (by omega)]
  rw [storeRequest_engine]
  rcases h : s.jobs with _ | ⟨j, rest⟩
  · simp only [State.engineLeft, h, if_pos]
  · rw [engineLeft_of_head h, hleft]
    cases j with
    | clear k => rw [jobBlocks_clear]
    | verify k => rw [jobBlocks_verify]

theorem storeRequest_reader (s : State) (i : SlotId) :
    s.storeRequest (Fin.ofNat 26 (2 + i.val)) =
      match (s.slot i).stream with
      | some r =>
        if r.read = .waiting then
          some (.reader i r.image ((s.image r.image).fields.base * 512 + r.nextChunk))
        else none
      | none => none := by
  have hval : (Fin.ofNat 26 (2 + i.val)).val = 2 + i.val := by
    rw [Fin.val_ofNat]
    omega
  have hslot : (⟨(Fin.ofNat 26 (2 + i.val)).val - 2, by omega⟩ : SlotId) = i := by
    ext
    simp only [hval]
    omega
  rw [State.storeRequest, dif_pos (by omega), hslot]
  simp only [Slot.waitingRead]
  cases (s.slot i).stream with
  | none => rfl
  | some r =>
    by_cases hw : r.read = .waiting
    · simp only [if_pos hw, firstBlock_eq]
    · simp only [if_neg hw]

/-! ### Words in error -/

theorem check_corrected (l : List Nat) (w : Nat) : (Memory.check l w == .corrected) = (l.count w == 1) := by
  unfold Memory.check
  split
  · next h => rw [h]; rfl
  · next h => rw [h]; rfl
  · next h0 h1 => exact (beq_eq_false_iff_ne.mpr h1).symm

theorem check_uncorrectable (l : List Nat) (w : Nat) :
    (Memory.check l w == .uncorrectable) = decide (2 ≤ l.count w) := by
  unfold Memory.check
  split
  · next h => rw [h]; rfl
  · next h => rw [h]; rfl
  · next h0 h1 =>
    have hpos : l.count w ≠ 0 := h0
    have hone : l.count w ≠ 1 := h1
    have h2 : 2 ≤ l.count w := by omega
    exact (decide_eq_true h2).symm

theorem corrected_eq (l : List Nat) (first n : Nat) :
    Memory.corrected l first n =
      (l.filter fun w => (first ≤ w && decide (w < first + n)) && l.count w == 1).length := by
  simp only [Memory.corrected, check_corrected]

theorem uncorrectable_eq (l : List Nat) (first n : Nat) :
    Memory.uncorrectable l first n =
      l.find? fun w => (first ≤ w && decide (w < first + n)) && decide (2 ≤ l.count w) := by
  simp only [Memory.uncorrectable, check_uncorrectable]

theorem uncorrectable_isSome (l : List Nat) (first n : Nat) :
    (Memory.uncorrectable l first n).isSome =
      l.any fun w => (first ≤ w && decide (w < first + n)) && decide (2 ≤ l.count w) := by
  rw [uncorrectable_eq, Bool.eq_iff_iff, List.find?_isSome, List.any_eq_true]

/-! ### What a read leaves -/

theorem damageImage_slots (h : (s.image k).state ≠ .ready) : (s.damageImage k).slots = s.slots := by
  unfold State.damageImage
  split
  · next hready => exact absurd hready h
  · rfl
  · rfl
  · rfl

/-- A read of an image that is not READY changes no slot (R118, R142). -/
theorem chargeWords_keepsSlots (h : (s.image k).state ≠ .ready) (first n : Nat) :
    keepsBut [.images] s (s.chargeWords k first n) := by
  have hslots : (s.chargeWords k first n).slots = s.slots := by
    unfold State.chargeWords
    dsimp only
    split
    · refine (damageImage_slots ?_).trans rfl
      rwa [oneRecord_same (countCorrected_record s k _)]
    · rfl
  intro p hp
  by_cases hp' : p = .slots
  · rw [hp']
    exact hslots
  · exact chargeWords_keeps s k first n p (by simpa [hp'] using hp)

/-- The record of a VERIFYING image of which words have been read (R117, R129). -/
theorem chargedRecord_of_verifying {x : Image} (h : x.state = .verifying) (n : Nat) (bad : Bool) :
    chargedRecord x n bad =
      { x with
        state := if bad then .damaged else .verifying
        fields :=
          { x.fields with
            corrected := min (x.fields.corrected + n) 65535
            computedCrc := if bad then none else x.fields.computedCrc } } := by
  cases bad with
  | true => exact damagedRecord_of_verifying (x := countedRecord x n) h
  | false => rw [← h]; rfl

/-! ### The engine's block in progress -/

theorem engineLeft_pos (hhead : s.jobs = j :: rest) (h : s.engineBlocks < s.jobBlocks j) : s.engineLeft ≠ 0 := by
  rw [engineLeft_of_head hhead]
  omega

theorem endEngineAccess_of_head {j : Job} {rest : List Job} (hg : s.granted = some .engine) (hhead : s.jobs = j :: rest)
    (h : s.engineBlocks < s.jobBlocks j) : s.endEngineAccess = State.grant { s.engineBlock j with granted := none } := by
  rw [State.endEngineAccess, if_pos hg]
  simp only [hhead, if_neg (engineLeft_pos hhead h)]

/-- A clearing's block is 0xFF, with fresh codes (R125). -/
theorem clearingBlock {rest : List Job} (hg : s.granted = some .engine) (hhead : s.jobs = .clear k :: rest)
    (hlt : s.engineBlocks < (s.image k).fields.size.units * 512) (hwf : Memory.wf s.store = true) :
    let block := (s.image k).fields.base * 512 + s.engineBlocks
    let inBlock := fun w => 64 * block ≤ w && decide (w < 64 * block + 64)
    ∃ u : State, s.endEngineAccess = u.grant ∧ keepsBut [.store, .jobs, .arbiter] s u ∧ u.granted = none ∧
      u.arbiterPointer = s.arbiterPointer ∧ u.engineAlone = s.engineAlone ∧ u.jobs = s.jobs ∧
      u.engineBlocks = s.engineBlocks + 1 ∧
      u.lostBits = s.lostBits.filter (fun w => !inBlock w) ∧
      ∀ b,
        Memory.read u.store b =
          if 512 * block ≤ b ∧ b < 512 * block + 512 then 0xFF else Memory.read s.store b := by
  intro block inBlock
  have hblock : (s.image k).firstBlock + s.engineBlocks = block := by rw [firstBlock_eq]
  refine ⟨_, endEngineAccess_of_head hg hhead (by rwa [jobBlocks_clear]), ?_, rfl, rfl, rfl, rfl, rfl, ?_, fun b => ?_⟩
  · exact (((clearBlocks_keeps s _ _).mono (by decide)).step (withJobs_keeps _ _ _) (by decide)).step
      (withArbiter_keeps _ none _) (by decide)
  · simp only [State.engineBlock, State.clearBlocks, hblock]
    rfl
  · simp only [State.engineBlock, State.clearBlocks, hblock]
    exact Memory.read_clear hwf _ _ b

/-- A verification's block is read: its corrected words are counted, and an uncorrectable one ends the job (R117, R129). -/
theorem verifyBlock_read {rest : List Job} (hg : s.granted = some .engine) (hhead : s.jobs = .verify k :: rest)
    (hlt : s.engineBlocks < ((s.image k).fields.highMark + 511) / 512) (hstate : (s.image k).state = .verifying)
    {first n : Nat} {bad : Bool} (hfirst : 64 * ((s.image k).fields.base * 512 + s.engineBlocks) = first)
    (hn : Memory.corrected s.lostBits first 64 = n) (hbad : (Memory.uncorrectable s.lostBits first 64).isSome = bad) :
    ∃ u : State, s.endEngineAccess = u.grant ∧ keepsBut [.images, .jobs, .arbiter] s u ∧ u.granted = none ∧
      u.arbiterPointer = s.arbiterPointer ∧ u.jobs = (if bad then rest else s.jobs) ∧
      u.engineBlocks = (if bad then 0 else s.engineBlocks + 1) ∧
      u.engineAlone = (if bad then false else s.engineAlone) ∧
      oneRecord s u k
        { s.image k with
          state := if bad then .damaged else .verifying
          fields :=
            { (s.image k).fields with
              corrected := min ((s.image k).fields.corrected + n) 65535
              computedCrc := if bad then none else (s.image k).fields.computedCrc } } := by
  have hkeeps := chargeWords_keepsSlots (s := s) (k := k) (by rw [hstate]; exact ImageState.noConfusion) first 64
  have hrecord := chargeWords_record s k first 64
  rw [hn, hbad, chargedRecord_of_verifying hstate] at hrecord
  obtain ⟨hjobs, -⟩ := hkeeps .jobs (by decide)
  obtain ⟨hpointer, -, halone⟩ := hkeeps .arbiter (by decide)
  have hend := endEngineAccess_of_head hg hhead (by rwa [jobBlocks_verify])
  have hstep : s.engineBlock (.verify k) =
      if bad then (s.chargeWords k first 64).endJob
      else { s.chargeWords k first 64 with engineBlocks := s.engineBlocks + 1 } := by
    rw [← hbad, ← hfirst, ← firstBlock_eq, State.engineBlock]
    rfl
  have hkeeps' : keepsBut [.images, .jobs, .arbiter] s (s.chargeWords k first 64) := hkeeps.mono (by decide)
  rw [hstep] at hend
  refine ⟨_, hend, ?_, rfl, ?_⟩
  · refine keepsBut.step ?_ (withArbiter_keeps _ none _) (by decide)
    split
    · exact hkeeps'.step (endJob_keeps _) (by decide)
    · exact hkeeps'.step (withJobs_keeps _ _ _) (by decide)
  · cases bad with
    | true =>
      have hrest : (s.chargeWords k first 64).jobs.drop 1 = rest := by rw [hjobs, hhead]; rfl
      exact ⟨hpointer, hrest, rfl, rfl, hrecord⟩
    | false => exact ⟨hpointer, hjobs, rfl, halone, hrecord⟩

/-! ### The accesses reported done -/

theorem writeAccessDone_after_engine (one two : List Nat) (hg : s.granted = some .engine) {tag : Tag} {offset : Nat}
    {data : List Byte} {discard : Bool} (hp : s.port.inProgress = some (.imageWrite tag k offset data discard))
    (hnext : s.endEngineAccess.granted = some .writePath) :
    exec (.imageWriteAccessDone one two) s = exec (.imageWriteAccessDone one two) s.endEngineAccess := by
  have hp' : s.endEngineAccess.port.inProgress = some (.imageWrite tag k offset data discard) := by
    rw [endEngineAccess_keeps s .port (by decide), hp]
  change execImageWriteAccessDone one two s = execImageWriteAccessDone one two s.endEngineAccess
  simp only [execImageWriteAccessDone, hg, hnext, if_pos, Option.some.injEq, reduceCtorEq, if_false, hp']

theorem streamChunkRead_after_engine (i : SlotId) (one two : List Nat) (hg : s.granted = some .engine) {block : Nat}
    (hnext : s.endEngineAccess.granted = some (.reader i k block)) :
    exec (.streamChunkRead i one two) s = exec (.streamChunkRead i one two) s.endEngineAccess := by
  change execStreamChunkRead i one two s = execStreamChunkRead i one two s.endEngineAccess
  simp only [execStreamChunkRead, hg, hnext, if_pos, Option.some.injEq, reduceCtorEq, if_false]

/-- Settles O33: the positions of the cycle in turn, the access each waits for, and the engine's block in progress. -/
theorem arbiterGrantsInTurn : Obligations.ArbiterGrantsInTurn := by
  refine ⟨fun s => ⟨?_, fun n hfree hn hbefore g hg => ?_⟩,
    fun s => ⟨storeRequest_writePath s, storeRequest_engine_eq s, storeRequest_reader s⟩,
    fun one two s hg => ⟨fun tag k offset data discard => writeAccessDone_after_engine one two hg,
      fun i k block => streamChunkRead_after_engine i one two hg⟩,
    fun k rest s hg => ⟨clearingBlock hg, fun hhead hlt hstate =>
      verifyBlock_read hg hhead hlt hstate rfl (corrected_eq _ _ _) (uncorrectable_isSome _ _ _)⟩⟩
  · rintro (h | h)
    · exact grant_of_granted h
    · exact grant_of_no_request h
  · have heq := grant_first hfree hn hbefore hg
    refine ⟨?_, ?_, grant_keeps s, fun j => ?_⟩
    · rw [heq, granting_granted]
    · rw [heq, granting_pointer, add_assoc]
      congr 1
      ext
      simp only [Fin.val_add, Fin.val_ofNat, Fin.val_one]
      omega
    · rw [heq]
      exact slot_granting s _ g j

end Sys2Proof.Machine.StoreArbiter
end

section
/-! PROOF. The image requests (6.3): IMAGE_DEFINE, IMAGE_WRITE, IMAGE_COMMIT and IMAGE_RELEASE, their checks in the order of
the spec and what each does when it is accepted. -/

namespace Sys2Proof.Machine.ImageRequests

open Tables ImageStore StoreArbiter

variable {s t u : State} {k l : ImageId} {tag : Tag} {kind : Byte} {c : ResultCode} {A : List Part}

/-! ### The outcome of a request -/

theorem receiptJoins_congr {r : Receipt} (h : u.uplink = t.uplink) (hj : receiptJoins s t r) : receiptJoins s u r := by
  unfold receiptJoins receiptQueued
  rw [h]
  exact hj

/-- A request that only answers (R187). -/
theorem request_answers {α : Type} {f : α} {run : α → State → State} {out : Host.Outcome State Fault Refusal}
    (h : s.intakeOpen = true) (hout : out = .next (s.requestWith tag kind (.shaped f) run))
    (hrun : run f s = s.answer tag kind c) :
    ∃ t, out = .next t ∧ onlyAnswers s t ⟨tag, kind, c, 0, .none⟩ :=
  ⟨s.answer tag kind c, by rw [hout, requestWith_shaped h, hrun], answer_onlyAnswers h⟩

theorem request_next {α : Type} {f : α} {run : α → State → State} {out : Host.Outcome State Fault Refusal}
    (h : s.intakeOpen = true) (hout : out = .next (s.requestWith tag kind (.shaped f) run)) (hrun : run f s = t) :
    out = .next t := by
  rw [hout, requestWith_shaped h, hrun]

/-! ### Numbers and codes -/

theorem imageNumber_none {b : Byte} (h : 8 ≤ b.toNat) : imageNumber b = none := dif_neg (by omega)

theorem imageNumber_some {b : Byte} (h : k.val = b.toNat) : imageNumber b = some k := by
  have hlt : b.toNat < 8 := h ▸ k.isLt
  rw [imageNumber, dif_pos hlt]
  exact congrArg some (Fin.ext h.symm)

theorem sizeClassCode_none {b : Byte} (h : 4 < b.toNat) : sizeClassCode b = none := by
  unfold sizeClassCode
  generalize b.toNat = n at h
  obtain ⟨m, rfl⟩ : ∃ m, n = m + 5 := ⟨n - 5, by omega⟩
  rfl

theorem sizeClassCode_some {b : Byte} (h : b.toNat ≤ 4) :
    ∃ size, sizeClassCode b = some size ∧ size.units = 2 ^ b.toNat := by
  unfold sizeClassCode
  generalize b.toNat = n at h
  match n, h with
  | 0, _ => exact ⟨.kib256, rfl, rfl⟩
  | 1, _ => exact ⟨.kib512, rfl, rfl⟩
  | 2, _ => exact ⟨.mib1, rfl, rfl⟩
  | 3, _ => exact ⟨.mib2, rfl, rfl⟩
  | 4, _ => exact ⟨.mib4, rfl, rfl⟩

theorem sharesUnit_iff (base units : Nat) (x : Image) :
    sharesUnit base units x = true ↔
      x.state ≠ .free ∧ base < x.fields.base + x.fields.size.units ∧ x.fields.base < base + units := by
  simp only [sharesUnit, Bool.and_eq_true, bne_iff_ne, decide_eq_true_eq, and_assoc]
  refine and_congr_right fun h => ?_
  rw [units_of_not_free h]

/-! ### A grant after a request -/

theorem grant_uplink (s : State) : s.grant.uplink = s.uplink := grant_keeps s .uplink (by decide)

theorem grant_port (s : State) : s.grant.port = s.port := grant_keeps s .port (by decide)

theorem image_grant (s : State) (l : ImageId) : s.grant.image l = s.image l :=
  congrArg (·.get l) (grant_keeps s .images (by decide))

theorem image_answer (s : State) (tag : Tag) (kind : Byte) (c : ResultCode) (detail : Half) (reply : Reply) (l : ImageId) :
    (s.answer tag kind c detail reply).image l = s.image l :=
  congrArg (·.get l) (answer_keeps s tag kind c detail reply .images (by decide))

/-- An image's record is changed, and a job of it joins the engine's list (R124). -/
def withJob (s : State) (k : ImageId) (f : Image → Image) (j : Job) : State :=
  { s.modImage k f with jobs := s.jobs ++ [j] }

theorem withJob_keeps (s : State) (k : ImageId) (f : Image → Image) (j : Job) :
    keepsBut [.images, .jobs] s (withJob s k f j) :=
  ((modImage_keeps s k f).mono (by decide)).step (withJobs_keeps _ (s.jobs ++ [j]) s.engineBlocks) (by decide)

/-- An accepted request that gives the engine a job: what it leaves, when the store may have been granted at once (R132). -/
theorem withJob_accepted (h : s.intakeOpen = true) {f : Image → Image} {j : Job}
    (ht : ((withJob s k f j).answer tag kind .accepted).grant = t) :
    receiptJoins s t ⟨tag, kind, .accepted, 0, .none⟩ ∧ keepsBut [.uplink, .images, .jobs, .arbiter, .slots] s t ∧
      t.jobs = s.jobs ++ [j] ∧ t.engineBlocks = s.engineBlocks ∧ t.engineAlone = s.engineAlone ∧
      (∀ l, t.image l = if l = k then f (s.image k) else s.image l) ∧ ∀ j, (s.slot j).sameButGrant (t.slot j) := by
  obtain ⟨hjoins, hkeeps⟩ := change_then_answer (tag := tag) (kind := kind) (c := .accepted) (detail := 0) (reply := .none)
    h (withJob_keeps s k f j) (by decide) (by decide)
  set u := (withJob s k f j).answer tag kind .accepted with hu
  obtain ⟨hjobs, hblocks⟩ := answer_keeps (withJob s k f j) tag kind .accepted 0 .none .jobs (by decide)
  obtain ⟨hjobs', hblocks'⟩ := grant_keeps u .jobs (by decide)
  obtain ⟨-, -, halone⟩ := hkeeps .arbiter (by decide)
  subst ht
  refine ⟨receiptJoins_congr (grant_uplink u) hjoins, (hkeeps.mono (by decide)).step (grant_keeps u) (by decide),
    hjobs'.trans hjobs, hblocks'.trans hblocks, (grant_engineAlone u).trans halone, fun l => ?_, fun j => ?_⟩
  · rw [image_grant, hu, image_answer]
    exact State.image_modImage s k l f
  · have hslot : u.slot j = s.slot j := State.slot_congr (hkeeps .slots (by decide)) j
    rw [← hslot]
    exact slot_grant u j

/-! ### IMAGE_DEFINE -/

theorem defineRefusal_of_state (h : (s.image k).state ≠ .free) (base units : Nat) :
    s.defineRefusal k base units = some .wrongState := if_pos h

theorem defineRefusal_of_base (h : (s.image k).state = .free) {base units : Nat}
    (hbase : base % units ≠ 0 ∨ 32 < base + units) : s.defineRefusal k base units = some .badBase := by
  rw [State.defineRefusal, if_neg (not_not_intro h)]
  split
  · rfl
  · next hmod => exact if_pos (hbase.resolve_left hmod)

theorem defineRefusal_of_overlap (h : (s.image k).state = .free) {base units : Nat} (hmod : base % units = 0)
    (hfit : base + units ≤ 32) (hshares : sharesUnit base units (s.image l) = true) :
    s.defineRefusal k base units = some .overlap := by
  have hany := (images_any s (sharesUnit base units)).mpr ⟨l, hshares⟩
  rw [State.defineRefusal, if_neg (not_not_intro h), if_neg (not_not_intro hmod)]
  exact (if_neg (Nat.not_lt.mpr hfit)).trans (if_pos hany)

/-- Settles O34: the checks of R122 in turn, and the window that is opened when they pass. -/
theorem imageDefineOpensAWindow : Obligations.ImageDefineOpensAWindow := by
  intro tag f s hopen units refused
  refine ⟨fun hsize => request_answers (kind := codeImageDefine) hopen rfl (by simp only [sizeClassCode_none hsize]),
    fun hsize => ?_⟩
  obtain ⟨size, hcode, hunits⟩ := sizeClassCode_some hsize
  refine ⟨fun himage =>
    request_answers (kind := codeImageDefine) hopen rfl (by simp only [hcode, imageNumber_none himage]), fun k hk => ?_⟩
  have hnumber := imageNumber_some hk
  have hrefused {c : ResultCode} (h : s.defineRefusal k f.base.toNat units = some c) : refused c :=
    request_answers (kind := codeImageDefine) hopen rfl (by simp only [hcode, hnumber, hunits]; rw [h])
  refine ⟨fun hstate => hrefused (defineRefusal_of_state hstate _ _), fun hfree =>
    ⟨fun hbase => hrefused (defineRefusal_of_base hfree hbase), fun hmod hfit => ?_⟩⟩
  refine ⟨?_, fun hnone => ?_⟩
  · rintro ⟨l, hl⟩
    exact hrefused (defineRefusal_of_overlap hfree hmod hfit ((sharesUnit_iff _ _ _).mpr hl))
  · have hpasses : s.defineRefusal k f.base.toNat size.units = none := by
      rw [hunits]
      refine (defineRefusal_eq_none_iff s k _ _).mpr ⟨hfree, hmod, hfit, fun l => ?_⟩
      rw [← Bool.not_eq_true, sharesUnit_iff]
      exact hnone l
    refine ⟨_, size, request_next hopen rfl (by simp only [hcode, hnumber, hpasses]; rfl), hunits, ?_⟩
    exact withJob_accepted hopen (f := fun x => x.define f.base.toNat size) rfl

/-! ### IMAGE_COMMIT and IMAGE_RELEASE -/

/-- The record of an image whose verification begins (R128). -/
def committed (crc : Word) (x : Image) : Image :=
  { x with state := .verifying, fields := { x.fields with expectedCrc := some crc, computedCrc := none } }

/-- The record of an image released (R130). -/
def freed (x : Image) : Image := { x with state := .free, fields := ImageFields.absent }

theorem releasable_eq_false {x : ImageState} (h : x = .free ∨ x = .clearing ∨ x = .verifying) : x.releasable = false := by
  rcases h with h | h | h <;> rw [h] <;> rfl

theorem releasable_eq_true {x : ImageState} (h : x = .loading ∨ x = .ready ∨ x = .damaged) : x.releasable = true := by
  rcases h with h | h | h <;> rw [h] <;> rfl

/-- Settles O35: the outcomes of IMAGE_COMMIT and of IMAGE_RELEASE, by the state of the image. -/
theorem imageCommitAndReleaseMoveTheState : Obligations.ImageCommitAndReleaseMoveTheState := by
  intro tag image crc s hopen commit release
  refine ⟨fun himage => ⟨request_answers (kind := codeImageCommit) hopen rfl (by simp only [imageNumber_none himage]),
    request_answers (kind := codeImageRelease) hopen rfl (by simp only [imageNumber_none himage])⟩, fun k hk => ?_⟩
  have hnumber := imageNumber_some hk
  refine ⟨fun hnot => request_answers (kind := codeImageCommit) hopen rfl ?_, fun hstate hmark => ?_,
    fun hstate => request_answers (kind := codeImageRelease) hopen rfl ?_,
    fun hstate => ⟨fun hrefs => request_answers (kind := codeImageRelease) hopen rfl ?_, fun hrefs => ?_⟩⟩
  · simp only [hnumber, Bool.and_eq_true, decide_eq_true_eq, if_neg hnot]
  · refine ⟨_, request_next hopen rfl ?_, withJob_accepted hopen (f := committed crc) rfl⟩
    simp only [hnumber, hstate, hmark, decide_true, Bool.and_self, if_true]
    rfl
  · simp only [hnumber, releasable_eq_false hstate, Bool.not_false, if_true]
  · simp only [hnumber, releasable_eq_true hstate, Bool.not_true, Bool.false_eq_true, if_false, if_pos hrefs]
  · have hrun := change_then_answer (tag := tag) (kind := codeImageRelease) (c := .accepted) (detail := 0) (reply := .none)
      hopen (modImage_keeps s k freed) (by decide) (by decide)
    refine ⟨_, request_next hopen rfl ?_, hrun.1, hrun.2, fun l => ?_⟩
    · simp only [hnumber, releasable_eq_true hstate, Bool.not_true, Bool.false_eq_true, if_false, hrefs, ne_eq,
        not_true_eq_false]
      rfl
    · rw [image_answer]
      exact State.image_modImage s k l freed

/-! ### IMAGE_WRITE -/

theorem writeRefusal_of_empty {f : ImageWriteFields} (h : f.data = []) : s.writeRefusal f = some .malformed := by
  rw [State.writeRefusal, h]
  rfl

theorem writeRefusal_of_long {f : ImageWriteFields} (h : 1024 < f.data.length) : s.writeRefusal f = some .tooLong := by
  have hdata : ¬ f.data.isEmpty = true := by
    rw [List.isEmpty_iff_length_eq_zero]
    omega
  rw [State.writeRefusal, if_neg hdata, if_pos h]

/-- The checks of R126 that follow those of the data's length. -/
theorem writeRefusal_of_length {f : ImageWriteFields} (hdata : f.data ≠ []) (hlength : f.data.length ≤ 1024) :
    s.writeRefusal f =
      match imageNumber f.image with
      | none => some .badImage
      | some k =>
        if (s.image k).state ≠ .loading then some .wrongState
        else if (s.image k).fields.size.bytes < f.offset.toNat + f.data.length then some .tooLong
        else none := by
  have hnonempty : ¬ f.data.isEmpty = true := by rwa [List.isEmpty_iff]
  exact (if_neg hnonempty).trans (if_neg (Nat.not_lt.mpr hlength))

/-- The record of an image whose high mark rises to at least `n` (R126). -/
def marked (n : Nat) (x : Image) : Image :=
  { x with fields := { x.fields with highMark := max x.fields.highMark n } }

/-- The state in which an accepted write waits for its store accesses (R126). -/
def writing (s : State) (tag : Tag) (k : ImageId) (offset : Nat) (data : List Byte) : State :=
  let t := s.noteAlone.modImage k (marked (offset + data.length))
  { t with port := { t.port with inProgress := some (.imageWrite tag k offset data false) } }

theorem writing_keeps (s : State) (tag : Tag) (k : ImageId) (offset : Nat) (data : List Byte) :
    keepsBut [.port, .images, .arbiter] s (writing s tag k offset data) :=
  (((noteAlone_keeps s).mono (by decide)).step (modImage_keeps _ k _) (by decide)).step (withPort_keeps _ _) (by decide)

theorem image_writing (s : State) (tag : Tag) (k : ImageId) (offset : Nat) (data : List Byte) (l : ImageId) :
    (writing s tag k offset data).image l =
      if l = k then marked (offset + data.length) (s.image k) else s.image l :=
  State.image_modImage s.noteAlone k l _

/-- Settles O36: the checks of R126 in turn, and the write that waits when they pass. -/
theorem imageWriteWaitsForTheStore : Obligations.ImageWriteWaitsForTheStore := by
  intro tag f s hopen refused
  have hrefused {c : ResultCode} (h : s.writeRefusal f = some c) : refused c :=
    request_answers (kind := codeImageWrite) hopen rfl (by simp only [h])
  refine ⟨fun h => hrefused (writeRefusal_of_empty h), fun h => hrefused (writeRefusal_of_long h),
    fun hdata hlength => ?_⟩
  have hchecks := writeRefusal_of_length (s := s) hdata hlength
  refine ⟨fun himage => hrefused (by rw [hchecks, imageNumber_none himage]), fun k hk => ?_⟩
  have hnumber := imageNumber_some hk
  rw [hnumber] at hchecks
  refine ⟨fun hstate => hrefused (hchecks.trans (if_pos hstate)), fun hstate => ?_⟩
  have hsize := hchecks.trans (if_neg (not_not_intro hstate))
  refine ⟨fun hout => hrefused (hsize.trans (if_pos hout)), fun hfits => ?_⟩
  have hpasses := hsize.trans (if_neg (Nat.not_lt.mpr hfits))
  refine ⟨(writing s tag k f.offset.toNat f.data).grant,
    request_next hopen rfl (by simp only [hpasses, hnumber]; rfl),
    ((writing_keeps s tag k _ _).mono (by decide)).step (grant_keeps _) (by decide), grant_port _, ?_, fun l => ?_,
    fun j => slot_grant (writing s tag k f.offset.toNat f.data) j⟩
  · rw [grant_engineAlone, ← engineHasStore_iff]
    exact noteAlone_engineAlone s
  · rw [image_grant]
    exact image_writing s tag k _ _ l

end Sys2Proof.Machine.ImageRequests
end

section
/-! PROOF. One access of an IMAGE_WRITE (6.3): the bytes and the codes it leaves, and the words it has read. -/

namespace Sys2Proof.Machine.WriteAccess

open Tables ImageStore StoreArbiter ImageRequests

variable {s t u : State} {k l : ImageId} {tag : Tag} {m : List Host.Cell} {offset : Nat} {data : List Byte}

/-! ### The words an access reads -/

theorem firstPartial_iff (a n : Nat) : firstPartial a n = true ↔ a % 8 ≠ 0 ∨ n < 8 := by
  simp only [firstPartial, Bool.or_eq_true, bne_iff_ne, decide_eq_true_eq]

theorem lastPartial_iff (a n : Nat) : lastPartial a n = true ↔ (a + n) % 8 ≠ 0 ∧ (a + n - 1) / 8 ≠ a / 8 := by
  simp only [lastPartial, Bool.and_eq_true, bne_iff_ne]

/-- The corrected words of an access, by the codes of its first and its last word (R117, R127). -/
theorem correctedWords_eq (a n : Nat) (codes : List Nat) (x y : Nat) :
    correctedWords a n (Memory.check codes x) (Memory.check codes y) =
      (if (a % 8 ≠ 0 ∨ n < 8) ∧ codes.count x = 1 then 1 else 0) +
        (if ((a + n) % 8 ≠ 0 ∧ (a + n - 1) / 8 ≠ a / 8) ∧ codes.count y = 1 then 1 else 0) := by
  simp only [correctedWords, check_corrected, Bool.and_eq_true, beq_iff_eq, firstPartial_iff, lastPartial_iff]

/-- Whether an access has read an uncorrectable word, by the codes of its first and its last word (R127). -/
theorem damagingWords_iff (a n : Nat) (codes : List Nat) (x y : Nat) :
    damagingWords a n (Memory.check codes x) (Memory.check codes y) = true ↔
      ((a % 8 ≠ 0 ∨ n < 8) ∧ 2 ≤ codes.count x) ∨
        (((a + n) % 8 ≠ 0 ∧ (a + n - 1) / 8 ≠ a / 8) ∧ 2 ≤ codes.count y) := by
  simp only [damagingWords, check_uncorrectable, Bool.or_eq_true, Bool.and_eq_true, decide_eq_true_eq, firstPartial_iff,
    lastPartial_iff]

/-! ### The bytes after an access -/

/-- A word covered in part whose read is uncorrectable is blanked to 0x00 (R127). -/
theorem read_zeroWord (hm : Memory.wf m = true) (isRead : Bool) (check : WordCheck) {word : Nat}
    (hw : 8 * word + 8 ≤ Config.storeBytes) (b : Nat) :
    Memory.read (zeroWord m isRead check word) b =
      if (isRead && check == .uncorrectable) = true ∧ b / 8 = word then 0 else Memory.read m b := by
  unfold zeroWord
  split
  · next h =>
    rw [Memory.read_writeBytes hm _ b _ (by simpa using hw), List.length_replicate]
    by_cases hb : b / 8 = word
    · have hlt : b - 8 * word < 8 := by omega
      rw [if_pos (by omega), if_pos ⟨h, hb⟩, List.getD_replicate _ hlt]
    · rw [if_neg (by omega), if_neg fun hc => hb hc.2]
  · next h => rw [if_neg fun hc => h hc.1]

/-- The bytes of an access read back; outside them, a word covered in part and uncorrectable reads as 0x00, and any other
byte as before (R127). -/
theorem read_writeBlock (hm : Memory.wf m = true) {a : Nat} {bytes : List Byte} (hbytes : bytes ≠ [])
    (ha : a + bytes.length ≤ Config.storeBytes) (first last : WordCheck) (b : Nat) :
    Memory.read (writeBlock m a bytes first last) b =
      if a ≤ b ∧ b < a + bytes.length then bytes.getD (b - a) Memory.blank
      else if (lastPartial a bytes.length && last == .uncorrectable) = true ∧ b / 8 = (a + bytes.length - 1) / 8 then 0
      else if (firstPartial a bytes.length && first == .uncorrectable) = true ∧ b / 8 = a / 8 then 0
      else Memory.read m b := by
  have hpos : 0 < bytes.length := List.length_pos_iff.mpr hbytes
  have h8 : Config.storeBytes = 8 * 1048576 := rfl
  have hfirst : 8 * (a / 8) + 8 ≤ Config.storeBytes := by omega
  have hlast : 8 * ((a + bytes.length - 1) / 8) + 8 ≤ Config.storeBytes := by omega
  have hwf := zeroWord_wf (firstPartial a bytes.length) first (a / 8) hfirst hm
  rw [writeBlock, Memory.read_writeBytes (zeroWord_wf _ last _ hlast hwf) a b bytes ha, read_zeroWord hwf _ last hlast,
    read_zeroWord hm _ first hfirst]

/-- A byte of a word that an access covers in part and has found uncorrectable (R127). -/
def lostByte (codes : List Nat) (a n b : Nat) : Prop :=
  ((a % 8 ≠ 0 ∨ n < 8) ∧ 2 ≤ codes.count (a / 8) ∧ b / 8 = a / 8) ∨
    (((a + n) % 8 ≠ 0 ∧ (a + n - 1) / 8 ≠ a / 8) ∧ 2 ≤ codes.count ((a + n - 1) / 8) ∧ b / 8 = (a + n - 1) / 8)

theorem length_access (a : Nat) (data : List Byte) : (data.take (accessLength a data)).length = accessLength a data := by
  rw [List.length_take, Nat.min_eq_left (accessLength_le a data)]

/-- The bytes of the store after one access of a write (R127). -/
theorem read_stored (hwf : Memory.wf s.store = true) (hdata : data ≠ []) {a n : Nat} (ha : accessStart s k offset = a)
    (hn : accessLength a data = n) (hfit : a + data.length ≤ Config.storeBytes) (b : Nat) :
    (∀ i < n, b = a + i → Memory.read (stored s k offset data).store b = data.getD i 0) ∧
      (¬ (a ≤ b ∧ b < a + n) →
        (lostByte s.lostBits a n b → Memory.read (stored s k offset data).store b = 0) ∧
          (¬ lostByte s.lostBits a n b → Memory.read (stored s k offset data).store b = Memory.read s.store b)) := by
  have hlength : (data.take n).length = n := by rw [← hn, length_access]
  have hpos : 0 < n := hn ▸ accessLength_pos a hdata
  have hle : n ≤ data.length := hn ▸ accessLength_le a data
  have hread := read_writeBlock hwf (a := a) (bytes := data.take n) (List.length_pos_iff.mp (by omega)) (by omega)
    (Memory.check s.lostBits (a / 8)) (Memory.check s.lostBits ((a + n - 1) / 8)) b
  have hstore : (stored s k offset data).store = writeBlock s.store a (data.take n) (Memory.check s.lostBits (a / 8))
      (Memory.check s.lostBits ((a + n - 1) / 8)) := by
    rw [← hn, ← ha]
    rfl
  simp only [hlength, check_uncorrectable, Bool.and_eq_true, decide_eq_true_eq, firstPartial_iff, lastPartial_iff] at hread
  rw [hstore, hread]
  refine ⟨fun i hi hb => ?_, fun hout => ?_⟩
  · rw [if_pos (by omega), hb, Nat.add_sub_cancel_left, List.getD_eq_getElem?_getD, List.getD_eq_getElem?_getD,
      List.getElem?_take_of_lt hi, List.getElem?_eq_getElem (by omega)]
    rfl
  · rw [if_neg hout]
    unfold lostByte
    constructor
    · rintro (⟨hpart, hcode, hb⟩ | ⟨hpart, hcode, hb⟩)
      · rw [if_pos (c := ((a % 8 ≠ 0 ∨ n < 8) ∧ 2 ≤ s.lostBits.count (a / 8)) ∧ b / 8 = a / 8) ⟨⟨hpart, hcode⟩, hb⟩,
          ite_self]
      · rw [if_pos ⟨⟨hpart, hcode⟩, hb⟩]
    · intro hkept
      rw [if_neg fun h => hkept (.inr ⟨h.1.1, h.1.2, h.2⟩), if_neg fun h => hkept (.inl ⟨h.1.1, h.1.2, h.2⟩)]

theorem wf_stored (hwf : Memory.wf s.store = true) (hdata : data ≠ [])
    (hfit : accessStart s k offset + data.length ≤ Config.storeBytes) :
    Memory.wf (stored s k offset data).store = true := by
  have hlength := length_access (accessStart s k offset) data
  have hpos := accessLength_pos (accessStart s k offset) hdata
  have hle := accessLength_le (accessStart s k offset) data
  exact writeBlock_wf _ _ (by omega) (List.length_pos_iff.mp (by omega)) hwf

/-! ### The record after an access -/

/-- The record of an image that may be written, after words of it have been read (R118). -/
theorem chargedRecord_of_writable {x : Image} (h : x.state = .loading ∨ x.state = .damaged) (n : Nat) (bad : Bool) :
    chargedRecord x n bad =
      { x with
        state := if bad then .damaged else x.state
        fields := { x.fields with corrected := min (x.fields.corrected + n) 65535 } } := by
  cases bad with
  | false => rfl
  | true =>
    rcases h with h | h
    · exact damagedRecord_of_idle (x := countedRecord x n) (.inr h)
    · refine (damagedRecord_of_other (x := countedRecord x n) ?_ ?_ ?_).trans ?_
      · exact fun hs => by cases h.symm.trans hs
      · exact fun hs => by cases h.symm.trans hs
      · exact fun hs => by cases h.symm.trans hs
      · simp only [if_true, ← h]
        rfl

theorem written_record {a n c : Nat} {bad : Bool} (ha : accessStart s k offset = a) (hn : accessLength a data = n)
    (hc : correctedWords a n (Memory.check s.lostBits (a / 8)) (Memory.check s.lostBits ((a + n - 1) / 8)) = c)
    (hbad : damagingWords a n (Memory.check s.lostBits (a / 8)) (Memory.check s.lostBits ((a + n - 1) / 8)) = bad) :
    oneRecord s (written s k offset data) k (chargedRecord (s.image k) c bad) := by
  have hcount := countCorrected_record (stored s k offset data) k c
  have hwritten : written s k offset data =
      if bad then ((stored s k offset data).countCorrected k c).damageImage k
      else (stored s k offset data).countCorrected k c := by
    rw [← hbad, ← hc, ← hn, ← ha]
    rfl
  rw [hwritten]
  cases bad with
  | true =>
    have hdamage := damageImage_record ((stored s k offset data).countCorrected k c) k
    rw [oneRecord_same hcount] at hdamage
    exact oneRecord_trans hcount hdamage
  | false => exact hcount

/-- An access to an image that is not READY changes no slot (R118, R142). -/
theorem written_slots (h : (s.image k).state ≠ .ready) (offset : Nat) (data : List Byte) :
    (written s k offset data).slots = s.slots := by
  obtain ⟨n, hw | hw⟩ := written_cases s k offset data
  · rw [hw]
    rfl
  · rw [hw]
    refine (damageImage_slots ?_).trans rfl
    rwa [oneRecord_same (countCorrected_record (stored s k offset data) k n)]

theorem stored_keeps (s : State) (k : ImageId) (offset : Nat) (data : List Byte) :
    keepsBut [.store, .arbiter] s (stored s k offset data) :=
  ((withStore_keeps s (stored s k offset data).store (stored s k offset data).lostBits).mono (by decide)).step
    (withArbiter_keeps _ none s.arbiterPointer) (by decide)

theorem written_keepsSlots (h : (s.image k).state ≠ .ready) (offset : Nat) (data : List Byte) :
    keepsBut [.images, .store, .arbiter] s (written s k offset data) := by
  have hk : keepsBut [.images, .store, .arbiter, .slots] s (written s k offset data) :=
    ((stored_keeps s k offset data).mono (by decide)).step (written_keeps s k offset data) (by decide)
  intro p hp
  by_cases hslots : p = .slots
  · rw [hslots]
    exact written_slots h offset data
  · exact hk p (by simpa [hslots] using hp)

/-! ### The request after an access -/

/-- The state before the store's next grant: the request goes on with the bytes that are left, or ends with its receipt,
which a host port detach may have discarded (R126, R190). -/
theorem writeAccess_leaves {v : State} {n : Nat} {discard : Bool} (hv : written s k offset data = v)
    (hn : accessLength (accessStart s k offset) data = n) (hport : discard = false → s.port.configured = true) :
    ∃ x, s.writeAccess tag k offset data discard = x.grant ∧ keepsBut [.port, .uplink] v x ∧
      (n < data.length →
        x.uplink = s.uplink ∧
          x.port = { s.port with inProgress := some (.imageWrite tag k (offset + n) (data.drop n) discard) }) ∧
      (n = data.length →
        x.port = { s.port with inProgress := none } ∧
          if discard = true then x.uplink = s.uplink
          else receiptJoins s x ⟨tag, codeImageWrite, .accepted, 0, .highMark (v.image k).fields.highMark⟩) := by
  have hu : v.uplink = s.uplink := hv ▸ written_keeps s k offset data .uplink (by decide)
  have hp : v.port = s.port := hv ▸ written_port s k offset data
  have hle : n ≤ data.length := hn ▸ accessLength_le (accessStart s k offset) data
  simp only [writeAccess_eq, hv, hn]
  have hwith (p : Port) : keepsBut [.port, .uplink] v { v with port := p } := (withPort_keeps v p).mono (by decide)
  have hjoins {x : State} {r : Receipt} (h : receiptJoins v x r) : receiptJoins s x r := by
    unfold receiptJoins receiptQueued at h ⊢
    rwa [hu] at h
  rw [← hp, ← hu]
  by_cases hrest : n = data.length
  · have hempty : (data.drop n).isEmpty = true := by
      rw [List.isEmpty_iff, List.drop_eq_nil_iff]
      exact hrest.ge
    rw [if_pos hempty]
    cases discard with
    | true =>
      simp only [if_true]
      exact ⟨_, rfl, hwith _, fun h => absurd hrest h.ne, fun _ => ⟨rfl, rfl⟩⟩
    | false =>
      simp only [Bool.false_eq_true, if_false]
      refine ⟨_, rfl, (hwith _).step (answer_keeps _ _ _ _ _ _) (by decide), fun h => absurd hrest h.ne, fun _ => ⟨?_, ?_⟩⟩
      · exact answer_keeps _ _ _ _ _ _ .port (by decide)
      · exact hjoins <| answer_receiptJoins (s := { v with port := { v.port with inProgress := none } })
          ((congrArg Port.configured hp).trans (hport rfl))
  · have hnonempty : ¬ (data.drop n).isEmpty = true := by
      rw [List.isEmpty_iff, List.drop_eq_nil_iff]
      omega
    rw [if_neg hnonempty]
    exact ⟨_, rfl, hwith _, fun _ => ⟨rfl, rfl⟩, fun h => absurd h hrest⟩

/-- The words that an access writes have fresh codes (R117). -/
theorem freshen_access (codes : List Nat) {a n : Nat} (hn : 0 < n) :
    Memory.freshen codes (a / 8) ((a + n - 1) / 8 + 1 - a / 8) =
      codes.filter (fun w => !(a / 8 ≤ w && decide (w ≤ (a + n - 1) / 8))) := by
  have hle : a / 8 ≤ (a + n - 1) / 8 := by omega
  refine List.filter_congr fun w _ => ?_
  congr 2
  exact decide_eq_decide.mpr (by omega)

theorem exec_imageWriteAccessDone (one two : List Nat) {discard : Bool} (hg : s.granted = some .writePath)
    (hp : s.port.inProgress = some (.imageWrite tag k offset data discard))
    (hfit : accessStart s k offset + data.length ≤ Config.storeBytes) :
    exec (.imageWriteAccessDone one two) s =
      .next ((s.disturb (64 * (accessStart s k offset / 512)) 64 one two).writeAccess tag k offset data discard) := by
  change execImageWriteAccessDone one two s = _
  simp only [execImageWriteAccessDone, hg, hp, if_pos]
  exact if_neg (Nat.not_lt.mpr hfit)

/-- What one access of a write leaves, the store granted again (R117, R118, R126, R127, R190). -/
theorem writeAccess_outcome {a n c : Nat} {bad discard : Bool} (ha : accessStart s k offset = a)
    (hn : accessLength a data = n)
    (hc : correctedWords a n (Memory.check s.lostBits (a / 8)) (Memory.check s.lostBits ((a + n - 1) / 8)) = c)
    (hbad : damagingWords a n (Memory.check s.lostBits (a / 8)) (Memory.check s.lostBits ((a + n - 1) / 8)) = bad)
    (hdata : data ≠ []) (hstate : (s.image k).state = .loading ∨ (s.image k).state = .damaged)
    (hport : discard = false → s.port.configured = true) (hwf : Memory.wf s.store = true)
    (hfit : a + data.length ≤ Config.storeBytes) :
    ∃ t, s.writeAccess tag k offset data discard = t ∧
      keepsBut [.port, .uplink, .images, .store, .arbiter, .slots] s t ∧ Memory.wf t.store = true ∧
      (∀ b, ¬ (a ≤ b ∧ b < a + n) →
        (lostByte s.lostBits a n b → Memory.read t.store b = 0) ∧
          (¬ lostByte s.lostBits a n b → Memory.read t.store b = Memory.read s.store b)) ∧
      (∀ i < n, Memory.read t.store (a + i) = data.getD i 0) ∧
      t.lostBits = s.lostBits.filter (fun w => !(a / 8 ≤ w && decide (w ≤ (a + n - 1) / 8))) ∧
      (∀ l, t.image l =
        if l = k then
          { s.image k with
            state := if bad then .damaged else (s.image k).state
            fields := { (s.image k).fields with corrected := min ((s.image k).fields.corrected + c) 65535 } }
        else s.image l) ∧
      (∀ j, (s.slot j).sameButGrant (t.slot j)) ∧ t.engineAlone = s.engineAlone ∧
      (n < data.length →
        t.uplink = s.uplink ∧
          t.port = { s.port with inProgress := some (.imageWrite tag k (offset + n) (data.drop n) discard) }) ∧
      (n = data.length →
        t.port = { s.port with inProgress := none } ∧
          if discard = true then t.uplink = s.uplink
          else receiptJoins s t ⟨tag, codeImageWrite, .accepted, 0, .highMark (s.image k).fields.highMark⟩) := by
  have hnot : (s.image k).state ≠ .ready := by
    rcases hstate with h | h <;> rw [h] <;> exact ImageState.noConfusion
  have hrecord := written_record ha hn hc hbad
  rw [chargedRecord_of_writable hstate] at hrecord
  have hmark : ((written s k offset data).image k).fields.highMark = (s.image k).fields.highMark := by
    rw [oneRecord_same hrecord]
  obtain ⟨x, hx, hxk, hmore, hdone⟩ := writeAccess_leaves (tag := tag) rfl (ha ▸ hn) hport
  rw [hmark] at hdone
  have hsx : keepsBut [.port, .uplink, .images, .store, .arbiter] s x :=
    ((written_keepsSlots hnot offset data).mono (by decide)).step hxk (by decide)
  have hstore : x.grant.store = (stored s k offset data).store ∧ x.grant.lostBits = (stored s k offset data).lostBits := by
    obtain ⟨hs1, hl1⟩ := written_keeps s k offset data .store (by decide)
    obtain ⟨hs2, hl2⟩ := hxk .store (by decide)
    obtain ⟨hs3, hl3⟩ := grant_keeps x .store (by decide)
    exact ⟨hs3.trans (hs2.trans hs1), hl3.trans (hl2.trans hl1)⟩
  obtain ⟨hbytes, hcodes⟩ := hstore
  have hread := read_stored hwf hdata ha hn hfit
  refine ⟨x.grant, hx, (hsx.mono (by decide)).step (grant_keeps x) (by decide), ?_, fun b hout => ?_, fun i hi => ?_, ?_,
    fun l => ?_, fun j => ?_, ?_, fun h => ?_, fun h => ?_⟩
  · rw [hbytes]
    exact wf_stored hwf hdata (ha ▸ hfit)
  · rw [hbytes]
    exact (hread b).2 hout
  · rw [hbytes]
    exact (hread (a + i)).1 i hi rfl
  · rw [hcodes, ← freshen_access _ (hn ▸ accessLength_pos a hdata), ← hn, ← ha]
    rfl
  · have himages : x.image l = (written s k offset data).image l := congrArg (·.get l) (hxk .images (by decide))
    rw [image_grant, himages]
    exact hrecord l
  · rw [← State.slot_congr (hsx .slots (by decide)) j]
    exact slot_grant x j
  · obtain ⟨-, -, halone⟩ := hxk .arbiter (by decide)
    obtain ⟨-, -, halone'⟩ := written_keeps s k offset data .arbiter (by decide)
    exact (grant_engineAlone x).trans (halone.trans halone')
  · rw [grant_uplink, grant_port]
    exact hmore h
  · rw [grant_uplink, grant_port]
    obtain ⟨hp, hu⟩ := hdone h
    refine ⟨hp, ?_⟩
    split
    · next hd => rwa [if_pos hd] at hu
    · next hd =>
      rw [if_neg hd] at hu
      exact receiptJoins_congr (grant_uplink x) hu

/-- Settles O37: the access is done on the codes that its block's words have then. -/
theorem writeAccessStoresItsBlock : Obligations.WriteAccessStoresItsBlock := by
  intro one two tag k offset data discard s hg hp hconf hdata hstate hwf a n codes first last firstRead lastRead lost
    damaged counted hfit
  have hdk : keepsBut [.store] s (s.disturb (64 * (a / 512)) 64 one two) := disturb_keeps s _ _ one two
  generalize hd : s.disturb (64 * (a / 512)) 64 one two = d at hdk
  have hcodes : d.lostBits = codes := by rw [← hd]; rfl
  have hdstore : d.store = s.store := by rw [← hd]; rfl
  have himage (l : ImageId) : d.image l = s.image l := by rw [← hd]; rfl
  have hslot (j : SlotId) : d.slot j = s.slot j := by rw [← hd]; rfl
  have hport : d.port = s.port := hdk .port (by decide)
  have huplink : d.uplink = s.uplink := hdk .uplink (by decide)
  obtain ⟨-, -, halone⟩ := hdk .arbiter (by decide)
  generalize hbad : damagingWords a n (Memory.check codes (a / 8)) (Memory.check codes ((a + n - 1) / 8)) = bad
  have hdamaged : bad = true ↔ damaged := hbad ▸ damagingWords_iff a n codes (a / 8) ((a + n - 1) / 8)
  have hcounted : correctedWords a n (Memory.check codes (a / 8)) (Memory.check codes ((a + n - 1) / 8)) = counted :=
    correctedWords_eq a n codes (a / 8) ((a + n - 1) / 8)
  obtain ⟨t, ht, hk, hwf', hout, hin, hlost, himages, hslots, halone', hmore, hdone⟩ :=
    writeAccess_outcome (s := d) (k := k) (tag := tag) (data := data) (discard := discard) (by rw [← hd]; rfl)
      (rfl : accessLength a data = n) (hcodes ▸ hcounted) (hcodes ▸ hbad) hdata (himage k ▸ hstate) (hport ▸ hconf)
      (hdstore ▸ hwf) hfit
  simp only [himage, hcodes, hdstore, hport, huplink, hslot] at hout hlost himages hslots hmore hdone
  have hsame := himages k
  rw [if_pos rfl] at hsame
  have hexec : exec (.imageWriteAccessDone one two) s = .next t := by
    rw [← ht, ← hd]
    exact exec_imageWriteAccessDone one two hg hp hfit
  refine ⟨t, hexec, (hdk.mono (by decide)).trans hk, hwf', hout, hin, hlost, fun l hl => (himages l).trans (if_neg hl),
    by rw [hsame], by rw [hsame], fun h => ?_, fun h => ?_, hslots, halone'.trans halone, hmore, fun h => ?_⟩
  · rw [hsame, if_pos (hdamaged.mpr h)]
  · rw [hsame, if_neg fun hb => h (hdamaged.mp hb)]
  · obtain ⟨hp', hu⟩ := hdone h
    refine ⟨hp', ?_⟩
    cases discard with
    | true => exact hu
    | false =>
      unfold receiptJoins receiptQueued at hu ⊢
      rwa [huplink] at hu

end Sys2Proof.Machine.WriteAccess
end

section
/-! PROOF. The ends of the engine's jobs and of a stream's read (6.3 to 6.6): when a job may end, and what its end leaves. -/

namespace Sys2Proof.Machine.JobEnds

open Tables ImageStore StoreArbiter ImageRequests

variable {s t u c w : State} {k l : ImageId} {j : Job} {rest : List Job} {one two : List Nat}

/-! ### Two grants in a row -/

theorem waitingRead_granted (x : Slot) : (x.modStream fun r => { r with read := .granted }).waitingRead = none := by
  rw [Slot.waitingRead, stream_modStream]
  cases x.stream <;> rfl

/-- A read that has been granted waits no longer, so that the next grant leaves it alone (R132). -/
theorem sameButGrant_trans {x y z : Slot} (hxy : x.sameButGrant y) (hyz : y.sameButGrant z) : x.sameButGrant z := by
  rcases hxy with rfl | ⟨hwaits, rfl⟩
  · exact hyz
  · rcases hyz with rfl | ⟨hstill, -⟩
    · exact .inr ⟨hwaits, rfl⟩
    · rw [waitingRead_granted] at hstill
      cases hstill

/-! ### When a job may end -/

/-- A job that may end as the store stands may end when the store has been granted (R124, R132). -/
theorem jobMayEnd_grant {left : Nat}
    (h : left = 0 ∨ s.engineAlone = true ∨
      (s.granted = some .engine ∧ (left = 1 ∨ ¬ ∃ p, p ≠ 1 ∧ s.storeRequest p ≠ none))) :
    s.grant.jobMayEnd left = true := by
  rw [jobMayEnd_iff]
  rcases h with hzero | halone | ⟨hg, hone | hnone⟩
  · exact .inl hzero
  · exact .inr (.inr (.inr ((grant_engineAlone s).trans halone)))
  · rw [grant_of_granted (by rw [hg]; exact Option.some_ne_none _)]
    exact .inr (.inl ⟨hg, hone⟩)
  · rw [grant_of_granted (by rw [hg]; exact Option.some_ne_none _)]
    refine .inr (.inr (.inl ((engineHasStore_iff s).mpr ⟨hg, fun p hp => ?_⟩)))
    by_contra hwaits
    exact hnone ⟨p, hp, hwaits⟩

/-- A job that may not end: another requester has the grant, or one waits while blocks are left (R124, R132). -/
theorem not_jobMayEnd_grant {left : Nat}
    (h : left ≠ 0 ∧ s.engineAlone = false ∧
      ((∃ g, s.granted = some g ∧ g ≠ .engine) ∨
        (s.granted = some .engine ∧ left ≠ 1 ∧ ∃ p, p ≠ 1 ∧ s.storeRequest p ≠ none))) :
    ¬ s.grant.jobMayEnd left = true := by
  obtain ⟨hzero, halone, hheld⟩ := h
  have hgranted : s.granted ≠ none := by
    rcases hheld with ⟨g, hg, -⟩ | ⟨hg, -⟩ <;> rw [hg] <;> exact Option.some_ne_none _
  rw [grant_of_granted hgranted, jobMayEnd_iff, engineHasStore_iff]
  rintro (hl | ⟨hg, hl⟩ | ⟨hg, hnone⟩ | ha)
  · exact hzero hl
  · rcases hheld with ⟨g, hg', hne⟩ | ⟨-, hone, -⟩
    · exact hne (Option.some.inj (hg'.symm.trans hg))
    · exact hone hl
  · rcases hheld with ⟨g, hg', hne⟩ | ⟨-, -, p, hp, hwaits⟩
    · exact hne (Option.some.inj (hg'.symm.trans hg))
    · exact hwaits (hnone p hp)
  · rw [halone] at ha
    cases ha

/-! ### The job leaves the list -/

theorem releaseEngine_keeps (s : State) : keepsBut [.arbiter] s s.releaseEngine := by
  unfold State.releaseEngine
  split
  · exact withArbiter_keeps s none s.arbiterPointer
  · exact .refl _ s

theorem releaseEngine_engineAlone (s : State) : s.releaseEngine.engineAlone = s.engineAlone := by
  unfold State.releaseEngine
  split <;> rfl

theorem image_of_keeps {A : List Part} (h : keepsBut A s t) (hA : Part.images ∉ A) (l : ImageId) :
    t.image l = s.image l := congrArg (·.get l) (h .images hA)

/-- The end of the job at the head, after its last accesses have led from the store's grant to `c` and its image's record
has been changed: the store is free for the next grant (R124, R132). -/
theorem jobEnd_leaves (hhead : s.jobs = j :: rest) (hc : keepsBut [.images, .store] s.grant c)
    (hw : keepsBut [.images] c.endJob.releaseEngine w) :
    keepsBut [.images, .store, .jobs, .arbiter, .slots] s w.grant ∧ w.grant.jobs = rest ∧ w.grant.engineBlocks = 0 ∧
      w.grant.engineAlone = false ∧ w.grant.store = c.store ∧ w.grant.lostBits = c.lostBits ∧
      ∀ i, (s.slot i).sameButGrant (w.grant.slot i) := by
  have hended : keepsBut [.jobs, .arbiter] c c.endJob.releaseEngine :=
    (endJob_keeps c).step (releaseEngine_keeps _) (by decide)
  have hcw : keepsBut [.images, .jobs, .arbiter] c w := (hended.mono (by decide)).step hw (by decide)
  have hsc : keepsBut [.images, .store, .arbiter, .slots] s c :=
    ((grant_keeps s).mono (by decide)).step hc (by decide)
  obtain ⟨hjobs, hblocks⟩ := hw .jobs (by decide)
  obtain ⟨hjobs', hblocks'⟩ := releaseEngine_keeps c.endJob .jobs (by decide)
  obtain ⟨hjobs'', hblocks''⟩ := grant_keeps w .jobs (by decide)
  obtain ⟨hcjobs, -⟩ := hsc .jobs (by decide)
  obtain ⟨-, -, halone⟩ := hw .arbiter (by decide)
  obtain ⟨hstore, hlost⟩ := hcw .store (by decide)
  obtain ⟨hstore', hlost'⟩ := grant_keeps w .store (by decide)
  have hrest : c.endJob.jobs = rest := by
    change c.jobs.drop 1 = rest
    rw [hcjobs, hhead]
    rfl
  refine ⟨((hsc.mono (by decide)).trans (hcw.mono (by decide))).step (grant_keeps w) (by decide),
    hjobs''.trans (hjobs.trans (hjobs'.trans hrest)), hblocks''.trans (hblocks.trans hblocks'),
    (grant_engineAlone w).trans (halone.trans (releaseEngine_engineAlone _)), hstore'.trans hstore, hlost'.trans hlost,
    fun i => ?_⟩
  have hslot : w.slot i = s.grant.slot i := by
    rw [State.slot_congr (hcw .slots (by decide)) i, State.slot_congr (hc .slots (by decide)) i]
  refine sameButGrant_trans (slot_grant s i) ?_
  rw [← hslot]
  exact slot_grant w i

/-! ### The end of a clearing -/

/-- The record of an image whose window has been cleared (R125). -/
def cleared (x : Image) : Image := { x with state := .loading, fields := { x.fields with highMark := 0 } }

theorem exec_clearingJobEnd (hhead : s.jobs = .clear k :: rest) :
    exec .clearingJobEnd s =
      .next
        (if s.grant.jobMayEnd (s.jobBlocks (.clear k) - s.engineBlocks) then
          State.grant
            ((s.grant.clearBlocks (s.image k).firstBlock (s.jobBlocks (.clear k))).endJob.releaseEngine.modImage k cleared)
        else s) := by
  obtain ⟨hjobs, hblocks⟩ := grant_keeps s .jobs (by decide)
  have himage := image_grant s k
  have hhead' := hjobs.trans hhead
  have hnumber : s.grant.jobBlocks (.clear k) = s.jobBlocks (.clear k) := by
    rw [jobBlocks_clear, jobBlocks_clear, himage]
  have hleft : s.grant.engineLeft = s.jobBlocks (.clear k) - s.engineBlocks := by
    rw [engineLeft_of_head hhead', hnumber, hblocks]
  change execClearingJobEnd s = _
  simp only [execClearingJobEnd, hhead', hleft, hnumber, himage]
  rfl

/-- A clearing job ends with every byte of the window 0xFF, and with fresh codes (R125). -/
theorem clearing_ends (hhead : s.jobs = .clear k :: rest)
    (hends : s.grant.jobMayEnd (s.jobBlocks (.clear k) - s.engineBlocks) = true) (hwf : Memory.wf s.store = true)
    {base units : Nat} (hbase : (s.image k).fields.base = base) (hunits : (s.image k).fields.size.units = units) :
    ∃ t, exec .clearingJobEnd s = .next t ∧ keepsBut [.images, .store, .jobs, .arbiter, .slots] s t ∧
      t.jobs = rest ∧ t.engineBlocks = 0 ∧ t.engineAlone = false ∧ Memory.wf t.store = true ∧
      (∀ b,
        Memory.read t.store b =
          if base * 262144 ≤ b ∧ b < base * 262144 + units * 262144 then 0xFF else Memory.read s.store b) ∧
      t.lostBits =
        s.lostBits.filter (fun w => !(base * 32768 ≤ w && decide (w < base * 32768 + units * 262144 / 8))) ∧
      (∀ l, t.image l = if l = k then cleared (s.image k) else s.image l) ∧
      ∀ j, (s.slot j).sameButGrant (t.slot j) := by
  have hexec := exec_clearingJobEnd hhead
  rw [if_pos hends] at hexec
  obtain ⟨hstore, hlost⟩ := grant_keeps s .store (by decide)
  have hfirst : (s.image k).firstBlock = base * 512 := by rw [firstBlock_eq, hbase]
  have hnumber : s.jobBlocks (.clear k) = units * 512 := by rw [jobBlocks_clear, hunits]
  rw [hfirst, hnumber] at hexec
  set c := s.grant.clearBlocks (base * 512) (units * 512) with hc
  have hck : keepsBut [.store] s.grant c := clearBlocks_keeps _ _ _
  obtain ⟨hk, hjobs, hblocks, halone, hstore', hlost', hslots⟩ := jobEnd_leaves hhead (hck.mono (by decide))
    (modImage_keeps c.endJob.releaseEngine k cleared)
  have hcstore : c.store = Memory.clear s.store (512 * (base * 512)) (512 * (units * 512)) := by rw [← hstore]; rfl
  have hclost : c.lostBits = Memory.freshen s.lostBits (64 * (base * 512)) (64 * (units * 512)) := by rw [← hlost]; rfl
  have hended : keepsBut [.store, .jobs, .arbiter, .slots] s c.endJob.releaseEngine :=
    ((((grant_keeps s).mono (by decide)).step hck (by decide)).step (endJob_keeps c) (by decide)).step
      (releaseEngine_keeps _) (by decide)
  have himage := image_of_keeps hended (by decide)
  refine ⟨_, hexec, hk, hjobs, hblocks, halone, ?_, fun b => ?_, ?_, fun l => ?_, hslots⟩
  · rw [hstore', hcstore]
    exact Memory.wf_clear _ _ hwf
  · rw [hstore', hcstore, Memory.read_clear hwf]
    refine if_congr ?_ rfl rfl
    omega
  · rw [hlost', hclost]
    refine List.filter_congr fun w _ => ?_
    congr 2
    · exact decide_eq_decide.mpr (by omega)
    · exact decide_eq_decide.mpr (by omega)
  · rw [image_grant, State.image_modImage, himage, himage]

/-! ### The end of a verification -/

/-- The first uncorrectable word among those that a verification still reads (R129). -/
def badWord (codes : List Nat) (first n : Nat) : Option Nat :=
  codes.find? fun w => decide (first ≤ w ∧ w < first + n ∧ 2 ≤ codes.count w)

theorem uncorrectable_eq_badWord (codes : List Nat) (first n : Nat) :
    Memory.uncorrectable codes first n = badWord codes first n := by
  rw [uncorrectable_eq, badWord]
  congr 1
  funext w
  simp only [Bool.decide_and, Bool.and_assoc]

theorem corrected_eq_decide (codes : List Nat) (first n : Nat) :
    Memory.corrected codes first n =
      (codes.filter fun w => decide (first ≤ w ∧ w < first + n ∧ codes.count w = 1)).length := by
  rw [corrected_eq]
  refine congrArg List.length (List.filter_congr fun w _ => ?_)
  simp only [Bool.decide_and, Bool.and_assoc]
  rfl

/-- The blocks that a verification still reads, from block `next` on: up to the first uncorrectable word, or all of the
`blocks` that are left (R129). -/
def blocksRead (bad : Option Nat) (next blocks : Nat) : Nat :=
  match bad with
  | some w => w / 64 + 1 - next
  | none => blocks

/-- The blocks read hold the first uncorrectable word, if there is one. -/
theorem badWord_isSome (codes : List Nat) (next blocks : Nat) :
    (badWord codes (64 * next) (64 * blocksRead (badWord codes (64 * next) (64 * blocks)) next blocks)).isSome =
      (badWord codes (64 * next) (64 * blocks)).isSome := by
  cases hbad : badWord codes (64 * next) (64 * blocks) with
  | none => rw [blocksRead, hbad]
  | some w =>
    have hword := List.find?_some hbad
    simp only [decide_eq_true_eq] at hword
    obtain ⟨hfirst, -, hcount⟩ := hword
    rw [badWord, blocksRead, Option.isSome_some, List.find?_isSome]
    exact ⟨w, List.mem_of_find?_eq_some hbad, by simp only [decide_eq_true_eq]; omega⟩

theorem verifyLeft_eq {next blocks : Nat} (hnext : (s.image k).firstBlock + s.engineBlocks = next)
    (hblocks : s.engineLeft = blocks) :
    s.verifyLeft k = blocksRead (badWord s.lostBits (64 * next) (64 * blocks)) next blocks := by
  rw [State.verifyLeft, hnext, hblocks, ← uncorrectable_eq_badWord]
  rfl

theorem jobMayEnd_disturb (s : State) (first n left : Nat) (one two : List Nat) :
    (s.disturb first n one two).jobMayEnd left = s.jobMayEnd left := rfl

/-- The codes and the blocks left as a verification's end is reported: those of the statement's own arithmetic. -/
theorem disturbed_verification (hhead : s.jobs = .verify k :: rest)
    (hu : s.grant.disturb (64 * (s.image k).firstBlock) (64 * s.jobBlocks (.verify k)) one two = u)
    {base blocks : Nat} (hbase : (s.image k).fields.base = base)
    (hblocks : ((s.image k).fields.highMark + 511) / 512 = blocks) :
    u.lostBits = Memory.loseBits s.lostBits (base * 32768) (64 * blocks) (one ++ two ++ two) ∧
      (u.image k).firstBlock + u.engineBlocks = base * 512 + s.engineBlocks ∧
      u.engineLeft = blocks - s.engineBlocks := by
  have hkeeps : keepsBut [.store, .arbiter, .slots] s u := hu ▸ ((grant_keeps s).mono (by decide)).step
    (disturb_keeps _ _ _ _ _) (by decide)
  obtain ⟨hjobs, hdone⟩ := hkeeps .jobs (by decide)
  obtain ⟨-, hlost⟩ := grant_keeps s .store (by decide)
  have himage : u.image k = s.image k := image_of_keeps hkeeps (by decide) k
  have hnumber : s.jobBlocks (.verify k) = blocks := by rw [jobBlocks_verify, hblocks]
  have hfirst : 64 * (s.image k).firstBlock = base * 32768 := by
    rw [firstBlock_eq, hbase]
    omega
  refine ⟨?_, ?_, ?_⟩
  · rw [← hlost, ← hfirst, ← hnumber, ← hu]
    rfl
  · rw [himage, hdone, firstBlock_eq, hbase]
  · rw [engineLeft_of_head (hjobs.trans hhead), hdone, jobBlocks_verify, himage, hblocks]

/-- A verification whose end is reported, by the blocks `left` that it still reads and the codes of their words. -/
theorem exec_verificationJobEnd (hhead : s.jobs = .verify k :: rest) {first n left : Nat} {bad : Bool}
    (hu : s.grant.disturb (64 * (s.image k).firstBlock) (64 * s.jobBlocks (.verify k)) one two = u)
    (hfirst : 64 * ((s.image k).firstBlock + s.engineBlocks) = first) (hleft : u.verifyLeft k = left)
    (hn : 64 * left = n) (hbad : (Memory.uncorrectable u.lostBits first n).isSome = bad)
    (hfit : (s.image k).start + (s.image k).fields.highMark ≤ Config.storeBytes) :
    exec (.verificationJobEnd one two) s =
      if s.grant.jobMayEnd left then
        .next (State.grant
          (if bad then (u.chargeWords k first n).endJob.releaseEngine
          else (u.chargeWords k first n).endJob.releaseEngine.modImage k fun x => x.verified (u.imageCrc k)))
      else .next s := by
  have hkeeps : keepsBut [.store, .arbiter, .slots] s u := hu ▸ ((grant_keeps s).mono (by decide)).step
    (disturb_keeps _ _ _ _ _) (by decide)
  obtain ⟨hjobs, hblocks⟩ := hkeeps .jobs (by decide)
  obtain ⟨hgjobs, -⟩ := grant_keeps s .jobs (by decide)
  have hghead := hgjobs.trans hhead
  have himage : u.image k = s.image k := image_of_keeps hkeeps (by decide) k
  have hgimage := image_grant s k
  have hnumber : s.grant.jobBlocks (.verify k) = s.jobBlocks (.verify k) := by
    rw [jobBlocks_verify, jobBlocks_verify, hgimage]
  have hmay : u.jobMayEnd left = s.grant.jobMayEnd left := by rw [← hu, jobMayEnd_disturb]
  have hu' : s.grant.disturb (Config.blockWords * (s.image k).firstBlock) (Config.blockWords * s.jobBlocks (.verify k))
      one two = u := hu
  have hfirst' : Config.blockWords * ((s.image k).firstBlock + s.engineBlocks) = first := hfirst
  have hn' : Config.blockWords * left = n := hn
  change execVerificationJobEnd one two s = _
  simp only [execVerificationJobEnd, hghead, hgimage, hnumber, hu', hleft, hmay, himage, hblocks, hfirst', hn', hbad,
    if_neg (Nat.not_lt.mpr hfit)]

theorem verified_match {x : Image} {crc : Word} (h : x.fields.expectedCrc = some crc) :
    x.verified crc =
      { x with state := .ready, fields := { x.fields with computedCrc := some crc, outcome := .matched } } := if_pos h

theorem verified_mismatch {x : Image} {crc : Word} (h : ¬ x.fields.expectedCrc = some crc) :
    x.verified crc =
      { x with state := .loading, fields := { x.fields with computedCrc := some crc, outcome := .mismatch } } := if_neg h

/-- The record of an image whose verification has ended: with the CRC of its bytes, or at an uncorrectable word (R129). -/
def verifiedRecord (x : Image) (corrected : Nat) (bad : Bool) (crc : Word) : Image :=
  if bad then chargedRecord x corrected true else (countedRecord x corrected).verified crc

theorem verifiedRecord_fields {x : Image} (h : x.state = .verifying) (corrected : Nat) (bad : Bool) (crc : Word) :
    let y := verifiedRecord x corrected bad crc
    y.generation = x.generation ∧
      y.fields =
        { x.fields with
          corrected := min (x.fields.corrected + corrected) 65535
          computedCrc := if bad then none else some crc
          outcome := y.fields.outcome } ∧
      (bad = true → y.state = .damaged ∧ y.fields.outcome = x.fields.outcome) ∧
      (bad = false → x.fields.expectedCrc = some crc → y.state = .ready ∧ y.fields.outcome = .matched) ∧
      (bad = false → ¬ x.fields.expectedCrc = some crc → y.state = .loading ∧ y.fields.outcome = .mismatch) := by
  intro y
  cases bad with
  | true =>
    have hy : y = chargedRecord x corrected true := rfl
    rw [chargedRecord_of_verifying h] at hy
    rw [hy]
    exact ⟨rfl, rfl, fun _ => ⟨rfl, rfl⟩, fun h => Bool.noConfusion h, fun h => Bool.noConfusion h⟩
  | false =>
    have hy : y = (countedRecord x corrected).verified crc := rfl
    by_cases hmatch : x.fields.expectedCrc = some crc
    · rw [verified_match (x := countedRecord x corrected) hmatch] at hy
      rw [hy]
      exact ⟨rfl, rfl, fun h => Bool.noConfusion h, fun _ _ => ⟨rfl, rfl⟩, fun _ h => absurd hmatch h⟩
    · rw [verified_mismatch (x := countedRecord x corrected) hmatch] at hy
      rw [hy]
      exact ⟨rfl, rfl, fun h => Bool.noConfusion h, fun _ h => absurd h hmatch, fun _ _ => ⟨rfl, rfl⟩⟩

/-- A verification ends with its record, no byte and no code of the store changed (R129). -/
theorem verification_ends (hhead : s.jobs = .verify k :: rest) {first n left correct : Nat} {bad : Bool}
    (hu : s.grant.disturb (64 * (s.image k).firstBlock) (64 * s.jobBlocks (.verify k)) one two = u)
    (hfirst : 64 * ((s.image k).firstBlock + s.engineBlocks) = first) (hleft : u.verifyLeft k = left)
    (hn : 64 * left = n) (hbad : (Memory.uncorrectable u.lostBits first n).isSome = bad)
    (hcorrect : Memory.corrected u.lostBits first n = correct)
    (hfit : (s.image k).start + (s.image k).fields.highMark ≤ Config.storeBytes)
    (hstate : (s.image k).state = .verifying) (hends : s.grant.jobMayEnd left = true) :
    ∃ t, exec (.verificationJobEnd one two) s = .next t ∧
      keepsBut [.images, .store, .jobs, .arbiter, .slots] s t ∧ t.jobs = rest ∧ t.engineBlocks = 0 ∧
      t.engineAlone = false ∧ t.store = s.store ∧ t.lostBits = u.lostBits ∧
      (∀ l, t.image l = if l = k then verifiedRecord (s.image k) correct bad (s.imageCrc k) else s.image l) ∧
      ∀ j, (s.slot j).sameButGrant (t.slot j) := by
  have hexec := exec_verificationJobEnd hhead hu hfirst hleft hn hbad hfit
  rw [if_pos hends] at hexec
  have huk : keepsBut [.store] s.grant u := hu ▸ disturb_keeps _ _ _ _ _
  have hstore : u.store = s.store := by
    rw [← hu]
    exact (grant_keeps s .store (by decide)).1
  have himage (l : ImageId) : u.image l = s.image l :=
    (image_of_keeps huk (by decide) l).trans (image_grant s l)
  have hcrc : u.imageCrc k = s.imageCrc k := by rw [State.imageCrc, State.imageCrc, hstore, himage]
  have hck : keepsBut [.images] u (u.chargeWords k first n) := chargeWords_keepsSlots
    (by rw [himage, hstate]; exact ImageState.noConfusion) first n
  have hrecord := chargeWords_record u k first n
  rw [hcorrect, hbad, himage] at hrecord
  obtain ⟨hcstore, hclost⟩ := hck .store (by decide)
  have hsc : keepsBut [.images, .store] s.grant (u.chargeWords k first n) := (huk.mono (by decide)).step hck (by decide)
  generalize u.chargeWords k first n = c at *
  have hended (l : ImageId) : c.endJob.releaseEngine.image l = c.image l :=
    image_of_keeps ((endJob_keeps c).step (releaseEngine_keeps _) (by decide)) (by decide) l
  obtain ⟨w, hw, hrec, hout⟩ : ∃ w, keepsBut [.images] c.endJob.releaseEngine w ∧
      oneRecord s w k (verifiedRecord (s.image k) correct bad (s.imageCrc k)) ∧
      exec (.verificationJobEnd one two) s = .next w.grant := by
    cases bad with
    | true =>
      refine ⟨_, .refl _ _, fun l => ?_, hexec⟩
      rw [hended, hrecord l, himage]
      rfl
    | false =>
      refine ⟨_, modImage_keeps _ k fun x => x.verified (u.imageCrc k), fun l => ?_, hexec⟩
      rw [State.image_modImage, hended, hended, oneRecord_same hrecord, hrecord l, himage, hcrc]
      split <;> rfl
  obtain ⟨hk, hjobs, hblocks, halone, hstore', hlost', hslots⟩ := jobEnd_leaves hhead hsc hw
  exact ⟨w.grant, hout, hk, hjobs, hblocks, halone, hstore'.trans (hcstore.trans hstore), hlost'.trans hclost,
    fun l => (image_grant w l).trans (hrec l), hslots⟩

/-! ### The end of a stream's read -/

/-- The record of an image that streams may hold, after words of it have been read (R118, R133). -/
theorem chargedRecord_of_held {x : Image} (h : x.state = .ready ∨ x.state = .damaged) (n : Nat) (bad : Bool) :
    chargedRecord x n bad =
      { x with
        state := if bad then .damaged else x.state
        fields := { x.fields with corrected := min (x.fields.corrected + n) 65535 } } := by
  rcases h with h | h
  · cases bad with
    | true => exact damagedRecord_of_idle (x := countedRecord x n) (.inl h)
    | false => rfl
  · exact WriteAccess.chargedRecord_of_writable (.inr h) n bad

/-- A damage stop goes to every slot engine when a read has damaged a READY image (R142). -/
theorem slot_chargeWords (s : State) (k : ImageId) {first n : Nat} {bad : Bool}
    (hbad : (Memory.uncorrectable s.lostBits first n).isSome = bad) (j : SlotId) :
    (s.chargeWords k first n).slot j =
      { s.slot j with
        damageStops :=
          if bad = true ∧ (s.image k).state = .ready then
            (s.slot j).damageStops ++ [⟨k, (s.image k).generation⟩]
          else (s.slot j).damageStops } := by
  have hcount := oneRecord_same (countCorrected_record s k (Memory.corrected s.lostBits first n))
  simp only [State.chargeWords, hbad]
  cases bad with
  | true =>
    rw [if_pos rfl, slot_damageImage, hcount]
    change (if (s.image k).state = .ready then _ else _) = _
    by_cases hready : (s.image k).state = .ready
    · rw [if_pos hready, if_pos ⟨rfl, hready⟩]
      rfl
    · rw [if_neg hready, if_neg fun h => hready h.2]
      rfl
  | false => rfl

/-- The errors a stream's read finds are charged to an image that is READY or DAMAGED, and else to none (R117, R118, R133). -/
theorem chargeRead_leaves {block n : Nat} {bad : Bool} (hn : Memory.corrected s.lostBits (64 * block) 64 = n)
    (hbad : (Memory.uncorrectable s.lostBits (64 * block) 64).isSome = bad) :
    (∀ l,
      (s.chargeRead k block).image l =
        if l = k ∧ ((s.image k).state = .ready ∨ (s.image k).state = .damaged) then
          { s.image k with
            state := if bad then .damaged else (s.image k).state
            fields := { (s.image k).fields with corrected := min ((s.image k).fields.corrected + n) 65535 } }
        else s.image l) ∧
    ∀ j,
      (s.chargeRead k block).slot j =
        { s.slot j with
          damageStops :=
            if bad = true ∧ (s.image k).state = .ready then
              (s.slot j).damageStops ++ [⟨k, (s.image k).generation⟩]
            else (s.slot j).damageStops } := by
  by_cases hheld : (s.image k).state = .ready ∨ (s.image k).state = .damaged
  · have hread : s.chargeRead k block = s.chargeWords k (64 * block) 64 := if_pos (by simpa using hheld)
    have hrecord := chargeWords_record s k (64 * block) 64
    rw [hn, hbad, chargedRecord_of_held hheld] at hrecord
    rw [hread]
    refine ⟨fun l => ?_, slot_chargeWords s k hbad⟩
    rw [hrecord l]
    exact if_congr (and_iff_left hheld).symm rfl rfl
  · have hread : s.chargeRead k block = s := if_neg (by simpa using hheld)
    rw [hread]
    refine ⟨fun l => (if_neg fun h => hheld h.2).symm, fun j => ?_⟩
    rw [if_neg fun h => hheld (.inl h.2)]

theorem exec_streamChunkRead {i : SlotId} {block : Nat} (hg : s.granted = some (.reader i k block))
    (hfit : 512 * (block + 1) ≤ Config.storeBytes)
    (hu : State.disturb { s with granted := none } (64 * block) 64 one two = u) :
    exec (.streamChunkRead i one two) s =
      .next
        (((u.chargeRead k block).deliver i block (Memory.uncorrectable u.lostBits (64 * block) 64).isSome).slotWork i) := by
  have hnot : ¬ Config.storeBytes < Config.blockBytes * (block + 1) := Nat.not_lt.mpr hfit
  change execStreamChunkRead i one two s = _
  simp only [execStreamChunkRead, hg, Option.some.injEq, reduceCtorEq, if_false, if_true, if_neg hnot, ← hu]
  rfl

/-- A stream's read is done: its errors are charged, and its data is held for the stream that waits for it (R133, R139). -/
theorem streamRead_ends {i : SlotId} {block n : Nat} {bad : Bool} (hg : s.granted = some (.reader i k block))
    (hfit : 512 * (block + 1) ≤ Config.storeBytes) {codes : List Nat}
    (hcodes : Memory.loseBits s.lostBits (64 * block) 64 (one ++ two ++ two) = codes)
    (hn : Memory.corrected codes (64 * block) 64 = n)
    (hbad : (Memory.uncorrectable codes (64 * block) 64).isSome = bad) :
    ∃ t u : State, exec (.streamChunkRead i one two) s = .next t ∧ t = u.slotWork i ∧
      keepsBut [.images, .store, .arbiter, .slots] s u ∧ u.store = s.store ∧ u.lostBits = codes ∧
      u.granted = none ∧ u.arbiterPointer = s.arbiterPointer ∧ u.engineAlone = s.engineAlone ∧
      (∀ l,
        u.image l =
          if l = k ∧ ((s.image k).state = .ready ∨ (s.image k).state = .damaged) then
            { s.image k with
              state := if bad then .damaged else (s.image k).state
              fields := { (s.image k).fields with corrected := min ((s.image k).fields.corrected + n) 65535 } }
          else s.image l) ∧
      ∀ j,
        let x : Slot :=
          { s.slot j with
            damageStops :=
              if bad = true ∧ (s.image k).state = .ready then
                (s.slot j).damageStops ++ [⟨k, (s.image k).generation⟩]
              else (s.slot j).damageStops }
        u.slot j =
          if j = i then
            x.modStream fun r =>
              if r.read = .granted then
                { r with
                  read :=
                    if bad then .failed
                    else
                      .held ((List.range (min 512 (r.length - 512 * r.nextChunk))).map fun b =>
                        Memory.read s.store (512 * block + b)) }
              else r
          else x := by
  obtain ⟨v, hv⟩ : ∃ v, State.disturb { s with granted := none } (64 * block) 64 one two = v := ⟨_, rfl⟩
  have hexec := exec_streamChunkRead hg hfit hv
  have hvcodes : v.lostBits = codes := by rw [← hv, ← hcodes]; rfl
  have hvstore : v.store = s.store := by rw [← hv]; rfl
  have hvimage (l : ImageId) : v.image l = s.image l := by rw [← hv]; rfl
  have hvslot (j : SlotId) : v.slot j = s.slot j := by rw [← hv]; rfl
  have hvgranted : v.granted = none := by rw [← hv]; rfl
  have hvk : keepsBut [.store, .arbiter] s v := hv ▸
    ((withArbiter_keeps s none s.arbiterPointer).mono (by decide)).step (disturb_keeps _ _ _ one two) (by decide)
  have hvpointer : v.arbiterPointer = s.arbiterPointer := by rw [← hv]; rfl
  have hvalone : v.engineAlone = s.engineAlone := by rw [← hv]; rfl
  obtain ⟨himages, hslots⟩ := chargeRead_leaves (s := v) (k := k) (block := block) (n := n) (bad := bad)
    (by rw [hvcodes]; exact hn) (by rw [hvcodes]; exact hbad)
  simp only [hvimage, hvslot] at himages hslots
  have hck := chargeRead_keeps v k block
  obtain ⟨hcstore, hclost⟩ := hck .store (by decide)
  obtain ⟨hcpointer, hcgranted, hcalone⟩ := hck .arbiter (by decide)
  rw [hvcodes, hbad] at hexec
  generalize v.chargeRead k block = c at *
  refine ⟨_, _, hexec, rfl, ?_, hcstore.trans hvstore, hclost.trans hvcodes, hcgranted.trans hvgranted,
    hcpointer.trans hvpointer, hcalone.trans hvalone, himages, fun j => ?_⟩
  · exact ((hvk.mono (by decide)).step hck (by decide)).step (deliver_keeps c i block bad) (by decide)
  · rw [State.deliver, State.slot_modSlot, hslots, hslots, hcstore, hvstore]
    dsimp only
    split
    · next h =>
      rw [h]
      rfl
    · rfl

/-! ### The statement -/

/-- Settles O38: when a job may end, what a clearing and a verification leave, and what a stream's read leaves. -/
theorem engineJobsAndChunkReadsEnd : Obligations.EngineJobsAndChunkReadsEnd := by
  refine ⟨fun k rest s => ?_, fun i k block one two s hg hfit => ?_⟩
  · intro base othersWait mayEnd mayNotEnd
    refine ⟨fun hhead => ?_, fun hhead hstate hfit one two => ?_⟩
    · intro bytes left
      have hleft : s.jobBlocks (.clear k) - s.engineBlocks = left := by rw [jobBlocks_clear]
      refine ⟨fun hnot => ?_, fun hmay hwf => ?_⟩
      · rw [exec_clearingJobEnd hhead, hleft, if_neg (not_jobMayEnd_grant hnot)]
      · exact clearing_ends hhead (by rw [hleft]; exact jobMayEnd_grant hmay) hwf rfl rfl
    · intro blocks codes first bad left corrected crc isMatch
      obtain ⟨u, hu⟩ : ∃ u, s.grant.disturb (64 * (s.image k).firstBlock) (64 * s.jobBlocks (.verify k)) one two = u :=
        ⟨_, rfl⟩
      obtain ⟨hcodes, hnext, hblocks⟩ := disturbed_verification hhead hu rfl rfl
      have hleft : u.verifyLeft k = left := by
        rw [verifyLeft_eq hnext hblocks, hcodes]
        rfl
      have hbad : (Memory.uncorrectable u.lostBits first (64 * left)).isSome = bad.isSome := by
        rw [hcodes, uncorrectable_eq_badWord]
        exact badWord_isSome codes (base * 512 + s.engineBlocks) (blocks - s.engineBlocks)
      have hcorrect : Memory.corrected u.lostBits first (64 * left) = corrected := by
        rw [hcodes]
        exact corrected_eq_decide codes first (64 * left)
      have hfirst : 64 * ((s.image k).firstBlock + s.engineBlocks) = first := by rw [firstBlock_eq]
      refine ⟨fun hnot => ?_, fun hmay => ?_⟩
      · rw [exec_verificationJobEnd hhead hu hfirst hleft rfl hbad hfit, if_neg (not_jobMayEnd_grant hnot)]
      · obtain ⟨t, hexec, hk, hjobs, hdone, halone, hstore, hlost, himages, hslots⟩ :=
          verification_ends hhead hu hfirst hleft rfl hbad hcorrect hfit hstate (jobMayEnd_grant hmay)
        have hsame := himages k
        rw [if_pos rfl] at hsame
        obtain ⟨hgeneration, hfields, hdamaged, hmatch, hmismatch⟩ :=
          verifiedRecord_fields hstate corrected bad.isSome (s.imageCrc k)
        rw [← hsame] at hgeneration hfields hdamaged hmatch hmismatch
        have hclean (h : bad = none) : bad.isSome = false := by rw [h]; rfl
        exact ⟨t, hexec, hk, hjobs, hdone, halone, hstore, hlost.trans hcodes, fun l hl => (himages l).trans (if_neg hl),
          hgeneration, hfields, fun h => hdamaged (Option.isSome_iff_ne_none.mpr h), fun h => hmatch (hclean h),
          fun h => hmismatch (hclean h), hslots⟩
  · exact streamRead_ends hg hfit rfl (corrected_eq _ _ _) (uncorrectable_isSome _ _ _)

end Sys2Proof.Machine.JobEnds
end

section
/-! PROOF. The key, the current samples and the fault requests of the power block (chapter 7): what a set's actions make of its
slots, what a sample makes of a slot, and the fault that a request of the present powered period enters. -/

namespace Sys2Proof.Machine.PowerBlock

open Tables FanOut

variable {s t u : State} {i : SlotId} {tag : Tag}

/-! ### Actions on the slots of a set -/

section
variable {allows : Slot → Bool} (f : Count → Slot → Slot)

theorem actOn_cons (act : State → SlotId → State) (i : SlotId) (l : List SlotId) (s : State) :
    s.actOn allows act (i :: l) =
      (((if allows (s.slot i) then act s i else s).actOn allows act l).1,
        (i, if allows (s.slot i) then .ok else .wrongState) ::
          ((if allows (s.slot i) then act s i else s).actOn allows act l).2) := by
  rw [State.actOn]
  split <;> rfl

/-- A change of one slot at the present count, where the slot allows it. -/
def actIf (allows : Slot → Bool) (f : Count → Slot → Slot) (s : State) (i : SlotId) : State :=
  if allows (s.slot i) then s.modSlot i (f s.now) else s

theorem actIf_keeps (s : State) (i : SlotId) : keepsBut [.slots] s (actIf allows f s i) := by
  unfold actIf
  split
  · exact modSlot_keeps s i _
  · exact .refl _ s

theorem slot_actIf (s : State) (i j : SlotId) :
    (actIf allows f s i).slot j = if j = i ∧ allows (s.slot j) = true then f s.now (s.slot j) else s.slot j := by
  unfold actIf
  by_cases hj : j = i
  · subst hj
    split <;> simp [*]
  · split <;> simp [hj, State.slot_modSlot_ne]

theorem slot_actIf_ne (s : State) {i j : SlotId} (h : j ≠ i) : (actIf allows f s i).slot j = s.slot j := by
  rw [slot_actIf, if_neg fun hj => h hj.1]

theorem actOn_modSlot_keeps (l : List SlotId) (s : State) :
    keepsBut [.slots] s (s.actOn allows (fun u i => u.modSlot i (f u.now)) l).1 := by
  induction l generalizing s with
  | nil => exact .refl _ s
  | cons i l ih =>
    rw [actOn_cons]
    exact (actIf_keeps f s i).trans (ih _)

/-- Each slot of a list of different slots answers by its own state, which the actions before have not touched. -/
theorem actOn_modSlot_outcomes {l : List SlotId} (hl : l.Nodup) (s : State) :
    (s.actOn allows (fun u i => u.modSlot i (f u.now)) l).2 =
      l.map fun i => (i, if allows (s.slot i) then .ok else .wrongState) := by
  induction l generalizing s with
  | nil => rfl
  | cons i l ih =>
    obtain ⟨hi, hl⟩ := List.nodup_cons.mp hl
    rw [actOn_cons, List.map_cons]
    refine congrArg _ ((ih hl (actIf allows f s i)).trans (List.map_congr_left fun j hj => ?_))
    have hne : j ≠ i := fun h => hi (h ▸ hj)
    rw [slot_actIf_ne f s hne]

theorem slot_actOn_modSlot {l : List SlotId} (hl : l.Nodup) (s : State) (j : SlotId) :
    (s.actOn allows (fun u i => u.modSlot i (f u.now)) l).1.slot j =
      if j ∈ l ∧ allows (s.slot j) = true then f s.now (s.slot j) else s.slot j := by
  induction l generalizing s with
  | nil => simp [State.actOn]
  | cons i l ih =>
    obtain ⟨hi, hl⟩ := List.nodup_cons.mp hl
    rw [actOn_cons]
    refine (ih hl (actIf allows f s i)).trans ?_
    rw [slot_actIf, (actIf_keeps f s i).time (by decide)]
    by_cases hj : j = i
    · subst hj
      simp [hi]
    · simp [hj]

/-- A request that changes the slots of a fitted set answers with their outcomes after its changes. -/
theorem control_fitted {set : SlotSet} (h : s.straps.namesUnfitted set = false) (kind : Byte) (mask : Half) :
    s.control tag kind set mask allows (fun u i => u.modSlot i (f u.now)) =
      (s.actOn allows (fun u i => u.modSlot i (f u.now)) (slotsOf set)).1.answer tag kind (clampResult mask) mask
        (.outcomes ((slotsOf set).map fun i => (i, if allows (s.slot i) then .ok else .wrongState))) := by
  rw [State.control, if_neg (by simp [h]), ← actOn_modSlot_outcomes f (slotsOf_nodup set) s]

end

/-! ### The key (7.7) -/

theorem clampTo_zero (hi v : Nat) : clampTo 0 hi v = min v hi := by
  rw [clampTo, if_neg (Nat.not_lt_zero v)]
  split <;> omega

/-- The mask of a list of one value is 1 when clamping has changed the value. -/
theorem maskOf_clamped (hi v : Nat) : maskOf [min v hi != v] = if hi < v then 1 else 0 := by
  have hclamped : (min v hi != v) = decide (hi < v) := by
    rw [Bool.eq_iff_iff, bne_iff_ne, decide_eq_true_iff]
    omega
  rw [hclamped]
  by_cases h : hi < v <;> simp [maskOf, h]

theorem clampResult_ite (p : Prop) [Decidable p] :
    clampResult (if p then 1 else 0) = if p then ResultCode.clamped else .accepted := by
  split <;> rfl

/-- A slot whose key is pressed for the duration given, or released with duration 0 (R154). -/
def pressed (duration : Nat) (now : Count) (x : Slot) : Slot :=
  { x with power := { x.power with key := startTimer now duration } }

theorem startTimer_clamped (now : Count) (duration : Half) :
    startTimer now (min duration.toNat 10000) = if duration = 0 then none else some ⟨now, min duration.toNat 10000⟩ := by
  have hzero : min duration.toNat 10000 = 0 ↔ duration = 0 := by bv_omega
  simp only [startTimer, hzero]

theorem pressKey_taken {set : SlotSet} (h : s.intakeOpen = true) (duration : Half) :
    exec (.pressKey tag (.shaped ⟨set, duration⟩)) s =
      .next (s.control tag codePressKey set (if 10000 < duration.toNat then 1 else 0) (fun x => x.power.vbus)
        fun u i => u.modSlot i (pressed (min duration.toNat 10000) u.now)) := by
  change execPressKey tag (.shaped ⟨set, duration⟩) s = _
  simp only [execPressKey, requestWith_shaped h, clampTo_zero, maskOf_clamped]
  rfl

/-- Settles O21: the slots act one after the other, each by its own VBUS, and then the receipt joins the uplink. -/
theorem pressKeyActsOnPoweredSlots : Obligations.PressKeyActsOnPoweredSlots := by
  intro tag set duration s h hset
  have hk := actOn_modSlot_keeps (allows := fun x => x.power.vbus) (pressed (min duration.toNat 10000)) (slotsOf set) s
  obtain ⟨hj, hk⟩ := change_then_answer h hk (by decide) (by decide)
  refine ⟨_, (pressKey_taken h duration).trans (congrArg _ (control_fitted _ hset _ _)), ?_, hk, fun i => ?_⟩
  · rw [clampResult_ite] at hj ⊢
    exact hj
  · rw [slot_answer, slot_actOn_modSlot _ (slotsOf_nodup set), pressed, startTimer_clamped]

/-! ### Current samples (7.3 to 7.5) -/

theorem currentSample_taken (hv : (s.slot i).power.vbus = true) (hd : (s.slot i).power.sampleDue = true) (milliamps : Nat) :
    exec (.currentSample i milliamps) s = .next (s.modSlot i fun x => x.takeSample s.now (min milliamps 4000)) := by
  change execCurrentSample i milliamps s = _
  simp only [execCurrentSample, hv, hd, Bool.and_self, if_true]
  rfl

theorem addSample_eq (p : PowerRecord) (v : Nat) :
    p.addSample v = { p with history := (p.history ++ [v]).drop (p.history.length - 999), sampleDue := false } := by
  have hlength : (p.history ++ [v]).length - Config.historyLimit = p.history.length - 999 := by
    simp [Config.historyLimit]
  simp only [PowerRecord.addSample, hlength]

theorem blanked_iff {p : PowerRecord} {start : Count} (h : p.periodStart = some start) (now : Count) :
    p.blanked now = true ↔ (now - start).toNat ≤ p.blankLength ∧ p.history.length < 1000 := by
  simp only [PowerRecord.blanked, h, Bool.and_eq_true, decide_eq_true_eq]
  exact Iff.rfl

/-! What a sample makes of a slot, case by case (R147 to R151). -/

section
variable {x : Slot} {now : Count} {v : Nat}

theorem takeSample_tripped (h : x.power.trip ≠ .clear) : x.takeSample now v = { x with power := x.power.addSample v } :=
  if_pos h

theorem takeSample_fullScale (h : x.power.trip = .clear) (hv : v = Config.fullScale) :
    x.takeSample now v =
      { x with
        power := { x.power.addSample v with trip := .short }
        faultRequests := x.faultRequests ++ [⟨.short, 4000, x.power.period⟩] } := by
  rw [Slot.takeSample, if_neg (not_not_intro h), if_pos hv, hv]
  simp only [Slot.tripWith, PowerRecord.addSample]
  rfl

theorem takeSample_blanked (h : x.power.trip = .clear) (hv : v ≠ Config.fullScale) (hb : x.power.blanked now = true) :
    x.takeSample now v = { x with power := x.power.addSample v } :=
  (if_neg (not_not_intro h)).trans ((if_neg hv).trans (if_pos hb))

theorem takeSample_supervised (h : x.power.trip = .clear) (hv : v ≠ Config.fullScale) (hb : ¬ x.power.blanked now = true) :
    x.takeSample now v =
      if x.profile.tripBudget ≤ x.power.accumulator + v - x.profile.currentLimit then
        { x with
          power := { x.power.addSample v with accumulator := x.profile.tripBudget, trip := .overcurrent }
          faultRequests := x.faultRequests ++ [⟨.overcurrent, BitVec.ofNat 16 v, x.power.period⟩] }
      else
        { x with
          power := { x.power.addSample v with accumulator := x.power.accumulator + v - x.profile.currentLimit } } := by
  rw [Slot.takeSample, if_neg (not_not_intro h), if_neg hv, if_neg hb]
  simp only [Slot.tripWith, PowerRecord.addSample]

end

/-- Settles O55: a sample's cases are those of `Slot.takeSample`, in its order: tripped before, full scale, blanked, over the
budget, within it. -/
theorem samplesFeedTheTripAccumulator : Obligations.SamplesFeedTheTripAccumulator := by
  intro i milliamps start s x hv hd hp v history blanked sum kept
  refine ⟨_, currentSample_taken hv hd milliamps, modSlot_keeps s i _, fun j hj => State.slot_modSlot_ne s _ hj, ?_⟩
  rw [State.slot_modSlot_same]
  have hkept : x.power.addSample v = kept := addSample_eq x.power v
  have hblanked : x.power.blanked s.now = true ↔ blanked := blanked_iff hp s.now
  change x.takeSample s.now v = _
  by_cases htrip : x.power.trip = .clear
  · rw [if_neg (not_not_intro htrip)]
    by_cases hshort : v = 4000
    · rw [if_pos hshort, takeSample_fullScale htrip hshort, hkept]
    rw [if_neg hshort]
    by_cases hb : blanked
    · rw [if_pos hb, takeSample_blanked htrip hshort (hblanked.mpr hb), hkept]
    · rw [if_neg hb, takeSample_supervised htrip hshort (mt hblanked.mp hb), hkept]
  · rw [if_pos htrip, takeSample_tripped htrip, hkept]

/-! ### Events of one slot -/

/-- Only a slot's notice-waiting flag and the uplink matter to the notices that follow. -/
theorem onlyNotices_congr (hu : u.uplink = s.uplink) (hw : (u.slot i).noticeWaiting = (s.slot i).noticeWaiting)
    (h : onlyNotices u t [i]) : onlyNotices s t [i] := by
  simpa only [onlyNotices, noticesFollow, List.filter_cons, List.filter_nil, hu, hw] using h

theorem onlyNotices_of_same (hu : t.uplink = s.uplink) (hw : (t.slot i).noticeWaiting = (s.slot i).noticeWaiting) :
    onlyNotices s t [i] := by
  simp [onlyNotices, noticesFollow, hu, hw]

theorem raise_onlyNotices (s : State) (i : SlotId) (k : EventKind) : onlyNotices s (s.raise i k) [i] := by
  unfold State.raise
  dsimp only
  split
  · exact onlyNotices_of_same rfl rfl
  · split
    · next hwaits =>
      obtain ⟨-, hfree⟩ : hasEvent s.noticeMask k = true ∧ (s.slot i).noticeWaiting = false := by simpa using hwaits
      refine ⟨?_, rfl⟩
      simp only [noticesFollow, slot_queueNotice, if_true, List.filter_cons, List.filter_nil, hfree, Bool.not_false,
        Bool.and_self]
      rfl
    · exact onlyNotices_of_same rfl (by rw [State.slot_modSlot_same])

theorem writeFault_onlyNotices (s : State) (i : SlotId) (c : FaultCause) (d : Half) :
    onlyNotices s (s.writeFault i c d) [i] := by
  unfold State.writeFault
  split
  · exact onlyNotices_of_same rfl rfl
  · refine onlyNotices_congr ?_ ?_ (raise_onlyNotices _ i .fault)
    · rfl
    · rw [State.slot_modSlot_same]

/-! ### A fault taken in a powered state (1.5) -/

theorem resolveDeferred_of_not_deferred (h : s.deferredOn i = false) : s.resolveDeferred i = s := by
  unfold State.deferredOn at h
  unfold State.resolveDeferred
  split
  · next tag j idleClass hp =>
    rw [hp] at h
    have hne : j ≠ i := by simpa using h
    simp [hne]
  · rfl

/-- Where no OPEN_BRIDGE waits on it, a slot that stops leaves the control port and the uplink alone. -/
theorem stopSlot_keeps_of_not_deferred (h : s.deferredOn i = false) (c : DropCause) (dest : SlotState) :
    keepsBut [.images, .slots] s (s.stopSlot i c dest) := by
  have hk := dropAll_keeps s i c
  rw [State.stopSlot, resolveDeferred_of_not_deferred]
  · exact hk.step (modSlot_keeps _ _ _) (by decide)
  · have hport : (s.dropAll i c).port = s.port := hk .port (by decide)
    rw [← h]
    simp only [State.deferredOn, State.modSlot_port, hport]

theorem enterFault_onlySlot (s : State) (i : SlotId) (c : FaultCause) (d : Half) : onlySlot s (s.enterFault i c d) i := by
  refine ⟨enterFault_keeps s i c d, fun j hj => by rw [slot_enterFault, if_neg hj], fun h => ?_⟩
  have hk := (stopSlot_keeps_of_not_deferred h .slotFault .fault).step
    (modSlot_keeps _ i fun x => { x with faultPeriod := some x.power.period }) (by decide)
  refine ⟨(writeFault_keeps _ i c d .port (by decide)).trans (hk .port (by decide)),
    onlyNotices_congr (hk .uplink (by decide)) ?_ (writeFault_onlyNotices _ i c d)⟩
  rw [State.slot_modSlot_same, slot_stopSlot s i _ (by decide), if_pos rfl]
  rfl

theorem releasesReferences_congr {gone : SlotId → Bool} (hi : t.images = u.images) (h : releasesReferences s u gone) :
    releasesReferences s t gone := by
  simpa only [releasesReferences, State.image, hi] using h

/-- A change of the slot that leaves its notice-waiting flag may come before a command of the slot. -/
theorem onlySlot_of_modSlot {f : Slot → Slot} (hw : (f (s.slot i)).noticeWaiting = (s.slot i).noticeWaiting)
    (h : onlySlot (s.modSlot i f) t i) : onlySlot s t i := by
  obtain ⟨hk, hslots, hnot⟩ := h
  refine ⟨((modSlot_keeps s i f).mono (by decide)).trans hk, fun j hj => (hslots j hj).trans (State.slot_modSlot_ne s f hj),
    fun hd => ?_⟩
  obtain ⟨hport, hnotices⟩ := hnot hd
  exact ⟨hport, onlyNotices_congr (u := s.modSlot i f) rfl (by rw [State.slot_modSlot_same, hw]) hnotices⟩

/-- A change of the slot that leaves what its stream holds may come before a release of references. -/
theorem releases_of_modSlot {f : Slot → Slot} {gone : SlotId → Bool} (hf : ∀ k, (f (s.slot i)).holds k = (s.slot i).holds k)
    (h : releasesReferences (s.modSlot i f) t gone) : releasesReferences s t gone := by
  have hholds (j : SlotId) (k : ImageId) : ((s.modSlot i f).slot j).holds k = (s.slot j).holds k := by
    by_cases hj : j = i
    · rw [hj, State.slot_modSlot_same, hf]
    · rw [State.slot_modSlot_ne s f hj]
  simpa only [releasesReferences, hholds, State.image_modSlot] using h

theorem enterFault_releases (s : State) (i : SlotId) (c : FaultCause) (d : Half) :
    releasesReferences s (s.enterFault i c d) (· == i) := by
  refine releasesReferences_congr ?_ (releaseReference_releases s i)
  exact (writeFault_keeps _ i c d .images (by decide)).trans (resolveDeferred_keeps _ i .images (by decide))

/-! ### Fault requests (7.5, 1.5) -/

theorem faultRequest_taken {r : FaultRequest} {rest : List FaultRequest} (h : (s.slot i).faultRequests = r :: rest) :
    exec (.faultRequest i) s =
      .next ((s.modSlot i fun x => { x with faultRequests := rest }).takeFaultRequest i r) := by
  change execFaultRequest i s = _
  simp only [execFaultRequest, h]

theorem takeFaultRequest_powered {r : FaultRequest} (hp : (s.slot i).state.powered = true)
    (hr : (s.slot i).power.period = r.period) : s.takeFaultRequest i r = s.enterFault i r.cause r.detail := by
  simp [State.takeFaultRequest, hp, hr]

theorem takeFaultRequest_otherwise {r : FaultRequest}
    (h : ¬ ((s.slot i).state.powered = true ∧ (s.slot i).power.period = r.period)) :
    s.takeFaultRequest i r =
      if (s.slot i).state = .fault ∧ (s.slot i).faultPeriod = some r.period then s.modSlot i Slot.countFurther else s := by
  simp only [State.takeFaultRequest, Bool.and_eq_true, decide_eq_true_iff, h, if_false]

/-- Settles O56: the request leaves the slot's channel, and then the slot's state and period decide. -/
theorem faultRequestsBelongToTheirPeriod : Obligations.FaultRequestsBelongToTheirPeriod := by
  intro i r rest s x h y
  have hexec := faultRequest_taken h
  set u := s.modSlot i fun x => { x with faultRequests := rest } with hu
  have hslot : u.slot i = y := State.slot_modSlot_same s i _
  have hk : keepsBut [.slots] s u := modSlot_keeps s i _
  have hslots : slotsBut (· = i) s u := fun j hj => State.slot_modSlot_ne s _ hj
  refine ⟨fun hp hr => ?_, fun hother => ?_⟩
  · rw [takeFaultRequest_powered (by rw [hslot]; exact hp) (by rw [hslot]; exact hr)] at hexec
    refine ⟨_, hexec, onlySlot_of_modSlot rfl (enterFault_onlySlot u i r.cause r.detail),
      releases_of_modSlot (fun _ => rfl) (enterFault_releases u i r.cause r.detail), ?_⟩
    rw [slot_enterFault, if_pos rfl, hslot, hu, State.modSlot_now, State.modSlot_noticeMask]
  · rw [takeFaultRequest_otherwise (by rw [hslot]; exact hother), hslot] at hexec
    by_cases hf : x.state = .fault ∧ x.faultPeriod = some r.period
    · refine ⟨_, hexec.trans (congrArg _ (if_pos hf)), hk.trans (modSlot_keeps u i _),
        fun j hj => (State.slot_modSlot_ne u _ hj).trans (hslots j hj), ?_⟩
      rw [if_pos hf, State.slot_modSlot_same, hslot]
      rfl
    · refine ⟨_, hexec.trans (congrArg _ (if_neg hf)), hk, hslots, ?_⟩
      rw [if_neg hf, hslot]

end Sys2Proof.Machine.PowerBlock
end

section
/-! PROOF. The uplink's queues under each shared operation: the waiting receipts with the place of the request in progress,
the notices and the BRIDGE_OUT messages, each slot at most once and exactly while its flag is set (R168, R169, R178, R186). -/

namespace Sys2Proof.Machine.UplinkQueues

variable {s t : State} {n m : Nat} {i : SlotId} {A : List Part}

/-! ### What is kept -/

/-- The two flags that say whether a slot has a notice and a BRIDGE_OUT in the uplink (R178, R168). -/
def waits (x : Slot) : Bool × Bool := (x.noticeWaiting, x.messageWaiting)

/-- The uplink is sound, with at most `n` receipts, a request in progress counted as one. A request is taken with `n` one
less than the limit, and its receipt takes the last place. -/
structure SoundWithin (n : Nat) (s : State) : Prop where
  room : s.uplink.receipts.length + s.port.inProgress.toList.length ≤ n
  notices_nodup : s.uplink.notices.Nodup
  mem_notices : ∀ i, i ∈ s.uplink.notices ↔ (s.slot i).noticeWaiting = true
  bridgeOuts_nodup : (s.uplink.bridgeOuts.map (·.slot)).Nodup
  mem_bridgeOuts : ∀ i, i ∈ s.uplink.bridgeOuts.map (·.slot) ↔ (s.slot i).messageWaiting = true

theorem uplinkSound_iff (s : State) : s.uplinkSound ↔ SoundWithin 8 s :=
  ⟨fun ⟨hroom, hn, hmn, hb, hmb⟩ => ⟨hroom, hn, hmn, hb, hmb⟩,
    fun ⟨hroom, hn, hmn, hb, hmb⟩ => ⟨hroom, hn, hmn, hb, hmb⟩⟩

theorem SoundWithin.mono (h : SoundWithin n s) (hnm : n ≤ m) : SoundWithin m s :=
  { h with room := h.room.trans hnm }

/-- Only the receipts with the request in progress, the two queues of slots and the flags matter. -/
theorem SoundWithin.congr (h : SoundWithin n s)
    (hroom : t.uplink.receipts.length + t.port.inProgress.toList.length ≤ m) (hn : t.uplink.notices = s.uplink.notices)
    (hb : t.uplink.bridgeOuts = s.uplink.bridgeOuts) (hw : ∀ i, waits (t.slot i) = waits (s.slot i)) :
    SoundWithin m t := by
  have hnotice (i : SlotId) : (t.slot i).noticeWaiting = (s.slot i).noticeWaiting := congrArg Prod.fst (hw i)
  have hmessage (i : SlotId) : (t.slot i).messageWaiting = (s.slot i).messageWaiting := congrArg Prod.snd (hw i)
  refine ⟨hroom, hn ▸ h.notices_nodup, fun i => ?_, hb ▸ h.bridgeOuts_nodup, fun i => ?_⟩
  · rw [hn, hnotice, h.mem_notices]
  · rw [hb, hmessage, h.mem_bridgeOuts]

/-- What leaves the uplink, the port and the flags alone. -/
theorem SoundWithin.of_same (h : SoundWithin n s) (hu : t.uplink = s.uplink) (hp : t.port = s.port)
    (hw : ∀ i, waits (t.slot i) = waits (s.slot i)) : SoundWithin n t :=
  h.congr (by rw [hu, hp]; exact h.room) (by rw [hu]) (by rw [hu]) hw

/-- What leaves the uplink, the port and the slots alone. -/
theorem SoundWithin.of_keepsBut (h : SoundWithin n s) (hk : keepsBut A s t)
    (hA : ∀ p ∈ [Part.uplink, .port, .slots], p ∉ A) : SoundWithin n t :=
  h.of_same (hk .uplink (hA _ (by decide))) (hk .port (hA _ (by decide)))
    fun i => congrArg waits (State.slot_congr (hk .slots (hA _ (by decide))) i)

theorem SoundWithin.foldl {α : Type} {f : State → α → State} (hf : ∀ s a, SoundWithin n s → SoundWithin n (f s a))
    (l : List α) (h : SoundWithin n s) : SoundWithin n (l.foldl f s) := by
  induction l generalizing s with
  | nil => exact h
  | cons a l ih => exact ih (hf s a h)

/-- Empty queues with no flag set. -/
theorem soundWithin_of_cleared (hroom : s.uplink.receipts.length + s.port.inProgress.toList.length ≤ n)
    (hn : s.uplink.notices = []) (hb : s.uplink.bridgeOuts = []) (hw : ∀ i, waits (s.slot i) = (false, false)) :
    SoundWithin n s := by
  have hnotice (i : SlotId) : (s.slot i).noticeWaiting = false := congrArg Prod.fst (hw i)
  have hmessage (i : SlotId) : (s.slot i).messageWaiting = false := congrArg Prod.snd (hw i)
  exact ⟨hroom, by simp [hn], by simp [hn, hnotice], by simp [hb], by simp [hb, hmessage]⟩

/-! ### The flags of a slot -/

theorem waits_of_sendsAs {x y : Slot} (h : x.sendsAs y) : waits y = waits x := by
  obtain ⟨_, _, rfl⟩ := h; rfl

@[simp] theorem waits_raiseFrame (x : Slot) (kind service : Byte) (payload : List Byte) :
    waits (x.raiseFrame kind service payload) = waits x :=
  waits_of_sendsAs (x.raiseFrame_sendsAs kind service payload)

@[simp] theorem waits_modStream (x : Slot) (f : StreamRecord → StreamRecord) : waits (x.modStream f) = waits x := by
  unfold Slot.modStream; split
  · split <;> rfl
  · rfl

theorem waits_sendChunk (x : Slot) : waits x.sendChunk = waits x := by
  unfold Slot.sendChunk; split
  · split
    · split <;> simp
    · rfl
  · rfl

theorem waits_pushByte (x : Slot) (b : Byte) : waits (x.pushByte b) = waits x := by
  unfold Slot.pushByte; split <;> rfl

theorem waits_pushBytes (l : List Byte) (x : Slot) : waits (l.foldl Slot.pushByte x) = waits x := by
  induction l generalizing x with
  | nil => rfl
  | cons b l ih => exact (ih _).trans (waits_pushByte x b)

theorem waits_frameTaken (x : Slot) (detector : Bool) : waits (x.frameTaken detector) = waits x := by
  unfold Slot.frameTaken; split <;> rfl

theorem waits_stepDown (x : Slot) (target : Nat) : waits (x.stepDown target) = waits x := by
  unfold Slot.stepDown Slot.extendWindow; split
  · split <;> rfl
  · rfl

theorem waits_lineStep (x : Slot) : waits x.lineStep = waits x := waits_of_sendsAs x.lineStep_sendsAs

theorem waits_takeSample (x : Slot) (now : Count) (v : Nat) : waits (x.takeSample now v) = waits x := by
  unfold Slot.takeSample; dsimp only
  split
  · simp only [waits]
  split
  · simp only [waits, Slot.tripWith]
  split
  · simp only [waits]
  split
  · simp only [waits, Slot.tripWith]
  · simp only [waits]

theorem waits_writeProfile (x : Slot) (f : ProfileFields) (ceiling : Nat) :
    waits (x.writeProfile f ceiling) = waits x := by
  have hceiling (y : Slot) : waits (y.writeCeiling f ceiling) = waits y := by
    unfold Slot.writeCeiling; split
    · dsimp only; split <;> rfl
    · rfl
  have hbudget (y : Slot) : waits y.applyBudget = waits y := by
    unfold Slot.applyBudget; split <;> rfl
  unfold Slot.writeProfile; dsimp only; split
  · exact (hbudget _).trans (hceiling _)
  · exact hceiling _

/-! ### One slot, one image, the port -/

/-- A change of a slot that leaves its flags. -/
theorem SoundWithin.modSlot (h : SoundWithin n s) (i : SlotId) {f : Slot → Slot}
    (hf : waits (f (s.slot i)) = waits (s.slot i)) : SoundWithin n (s.modSlot i f) := by
  refine h.of_same rfl rfl fun j => ?_
  rw [State.slot_modSlot]
  split
  · next hj => rw [hj, hf]
  · rfl

/-- A change of a slot that leaves its flags, and a frame raised on it. -/
theorem SoundWithin.raiseFrame (h : SoundWithin n s) (i : SlotId) {f : Slot → Slot} {kind service : Byte}
    {payload : List Byte} (hf : waits (f (s.slot i)) = waits (s.slot i)) :
    SoundWithin n (s.modSlot i fun x => (f x).raiseFrame kind service payload) :=
  h.modSlot i ((waits_raiseFrame _ _ _ _).trans hf)

theorem SoundWithin.modSlots (h : SoundWithin n s) {f : SlotId → Slot → Slot} (hf : ∀ i x, waits (f i x) = waits x) :
    SoundWithin n (s.modSlots f) :=
  h.foldl (fun _ i hs => hs.modSlot i (hf i _)) _

theorem SoundWithin.modImage (h : SoundWithin n s) (k : ImageId) {f : Image → Image} : SoundWithin n (s.modImage k f) :=
  h.of_keepsBut (modImage_keeps s k f) (by decide)

theorem SoundWithin.countCorrected (h : SoundWithin n s) (k : ImageId) (v : Nat) : SoundWithin n (s.countCorrected k v) :=
  h.modImage k

theorem SoundWithin.setInterlock (h : SoundWithin n s) (k : Bank) (x : Interlock) : SoundWithin n (s.setInterlock k x) :=
  h.of_keepsBut (setInterlock_keeps s k x) (by decide)

theorem SoundWithin.withPort (h : SoundWithin n s) {p : Port}
    (hp : p.inProgress.toList.length ≤ s.port.inProgress.toList.length) : SoundWithin n { s with port := p } :=
  h.congr ((Nat.add_le_add_left hp _).trans h.room) rfl rfl fun _ => rfl

/-- A request in progress holds one place of the receipts. -/
theorem SoundWithin.requestBegins (h : SoundWithin n s) (q : InProgress) :
    SoundWithin (n + 1) { s with port := { s.port with inProgress := some q } } :=
  h.congr (Nat.succ_le_succ ((Nat.le_add_right _ _).trans h.room)) rfl rfl fun _ => rfl

/-- The request in progress leaves its place to its receipt. -/
theorem SoundWithin.requestEnds (h : SoundWithin n s) {q : InProgress} (hp : s.port.inProgress = some q) :
    ∃ m, n = m + 1 ∧ SoundWithin m { s with port := { s.port with inProgress := none } } := by
  have hroom : s.uplink.receipts.length + 1 ≤ n := by simpa [hp] using h.room
  obtain ⟨m, rfl⟩ : ∃ m, n = m + 1 := ⟨n - 1, by omega⟩
  exact ⟨m, rfl, h.congr (Nat.le_of_succ_le_succ hroom) rfl rfl fun _ => rfl⟩

/-! ### Messages to the test host -/

theorem SoundWithin.arbitrate (h : SoundWithin n s) : SoundWithin n s.arbitrate := by
  obtain ⟨hr, -, hb, hn, -⟩ := arbitrate_classes s
  refine h.congr ?_ hn hb fun i => congrArg waits (slot_arbitrate s i)
  rw [hr, arbitrate_keeps s .port (by decide)]
  exact h.room

theorem SoundWithin.answer (h : SoundWithin n s) {tag : Tag} {kind : Byte} {c : ResultCode} {detail : Half}
    {reply : Reply} : SoundWithin (n + 1) (s.answer tag kind c detail reply) := by
  refine SoundWithin.arbitrate (h.congr ?_ rfl rfl fun _ => rfl)
  have hroom := h.room
  rw [List.length_append, List.length_singleton]
  dsimp only
  omega

theorem SoundWithin.sendGather (h : SoundWithin n s) (g : GatherReport) : SoundWithin n (s.sendGather g) :=
  SoundWithin.arbitrate (h.congr h.room rfl rfl fun _ => rfl)

/-- A slot that waits for no notice joins the notices as its flag is set (R178). -/
theorem SoundWithin.queueNotice (h : SoundWithin n s) (hw : (s.slot i).noticeWaiting = false) :
    SoundWithin n (s.queueNotice i) := by
  have hi : i ∉ s.uplink.notices := by rw [h.mem_notices, hw]; exact Bool.false_ne_true
  have huplink : (s.queueNotice i).uplink = { s.uplink with notices := s.uplink.notices ++ [i] } := rfl
  refine ⟨h.room, ?_, fun j => ?_, h.bridgeOuts_nodup, fun j => ?_⟩
  · rw [huplink]
    exact List.concat_eq_append ▸ h.notices_nodup.concat hi
  · rw [huplink, slot_queueNotice, List.mem_append, List.mem_singleton, h.mem_notices]
    by_cases hj : j = i <;> simp [hj]
  · rw [huplink, slot_queueNotice, h.mem_bridgeOuts]
    split
    · next hj => rw [hj]
    · rfl

/-- A slot that queues a BRIDGE_OUT takes the bytes out of its ring and sets its flag; no other slot changes (R168). -/
theorem slot_queueBridgeOut (s : State) (i j : SlotId) :
    (s.queueBridgeOut i).slot j =
      if j = i then
        { s.slot i with
          ring := (s.slot i).ring.drop 256, wrapped := false, messageWaiting := true
          bridge := (s.slot i).bridge.map fun b => { b with gathering := none } }
      else s.slot j := by
  rw [State.queueBridgeOut, slot_sendBridgeOut, State.slot_modSlot]
  rfl

/-- The message joins its class, and the other classes are the same. -/
theorem queueBridgeOut_classes (s : State) (i : SlotId) :
    (s.queueBridgeOut i).uplink.receipts = s.uplink.receipts ∧ (s.queueBridgeOut i).uplink.gathers = s.uplink.gathers ∧
      (s.queueBridgeOut i).uplink.notices = s.uplink.notices ∧
      (s.queueBridgeOut i).uplink.bridgeOuts =
        s.uplink.bridgeOuts ++ [⟨i, (s.slot i).wrapped, (s.slot i).ring.take 256⟩] := by
  unfold State.queueBridgeOut State.sendBridgeOut; dsimp only
  obtain ⟨hr, hg, hb, hn, -⟩ := arbitrate_classes _
  exact ⟨hr, hg, hn, hb⟩

/-- A slot that has no message in the uplink joins the BRIDGE_OUT messages as its flag is set (R168). -/
theorem SoundWithin.queueBridgeOut (h : SoundWithin n s) (hw : (s.slot i).messageWaiting = false) :
    SoundWithin n (s.queueBridgeOut i) := by
  have hi : i ∉ s.uplink.bridgeOuts.map (·.slot) := by rw [h.mem_bridgeOuts, hw]; exact Bool.false_ne_true
  obtain ⟨hr, -, hn, hb⟩ := queueBridgeOut_classes s i
  refine ⟨?_, hn ▸ h.notices_nodup, fun j => ?_, ?_, fun j => ?_⟩
  · rw [hr, queueBridgeOut_keeps s i .port (by decide)]
    exact h.room
  · rw [hn, slot_queueBridgeOut, h.mem_notices]
    split
    · next hj => rw [hj]
    · rfl
  · rw [hb, List.map_append]
    exact List.concat_eq_append ▸ h.bridgeOuts_nodup.concat hi
  · rw [hb, slot_queueBridgeOut, List.map_append, List.mem_append, h.mem_bridgeOuts]
    by_cases hj : j = i <;> simp [hj]

/-! ### Events -/

theorem SoundWithin.raise (h : SoundWithin n s) (i : SlotId) (k : EventKind) : SoundWithin n (s.raise i k) := by
  unfold State.raise; dsimp only
  split
  · exact h
  split
  · next hnew =>
    simp only [Bool.and_eq_true, Bool.not_eq_true'] at hnew
    exact (h.modSlot i (by rfl)).queueNotice (by rw [State.slot_modSlot_same]; exact hnew.2)
  · exact h.modSlot i rfl

theorem SoundWithin.raiseAgentUp (h : SoundWithin n s) (i : SlotId) : SoundWithin n (s.raiseAgentUp i) :=
  (h.modSlot i (by rfl)).raise i _

theorem SoundWithin.noticeIfPending (h : SoundWithin n s) (enabled : BitVec 8) (i : SlotId) :
    SoundWithin n (s.noticeIfPending enabled i) := by
  unfold State.noticeIfPending; split
  · next hp =>
    simp only [Bool.and_eq_true, Bool.not_eq_true'] at hp
    exact h.queueNotice hp.2
  · exact h

theorem SoundWithin.report (h : SoundWithin n s) (i : SlotId) (r : Report) : SoundWithin n (s.report i r) := h.modSlot i rfl

theorem SoundWithin.ask (h : SoundWithin n s) (i : SlotId) (r : SlotRequest) : SoundWithin n (s.ask i r) := h.modSlot i rfl

/-! ### The store arbiter -/

theorem SoundWithin.grant (h : SoundWithin n s) : SoundWithin n s.grant := by
  refine h.of_same (grant_keeps s .uplink (by decide)) (grant_keeps s .port (by decide)) fun i => ?_
  rcases slot_grant s i with heq | ⟨-, heq⟩
  · rw [heq]
  · rw [heq, waits_modStream]

theorem SoundWithin.noteAlone (h : SoundWithin n s) : SoundWithin n s.noteAlone :=
  h.of_keepsBut (noteAlone_keeps s) (by decide)

/-! ### How a slot stops -/

theorem SoundWithin.releaseReference (h : SoundWithin n s) (i : SlotId) : SoundWithin n (s.releaseReference i) := by
  unfold State.releaseReference; split
  · split
    · exact (h.modImage _).modSlot i (waits_modStream _ _)
    · exact h
  · exact h

theorem SoundWithin.dropInFlight (h : SoundWithin n s) (i : SlotId) (c : DropCause) : SoundWithin n (s.dropInFlight i c) :=
  (h.releaseReference i).modSlot i rfl

theorem SoundWithin.dropAll (h : SoundWithin n s) (i : SlotId) (c : DropCause) : SoundWithin n (s.dropAll i c) :=
  (h.dropInFlight i c).modSlot i rfl

theorem SoundWithin.openBridgeOn (h : SoundWithin n s) (i : SlotId) (c : Option Nat) : SoundWithin n (s.openBridgeOn i c) :=
  h.modSlot i (waits_raiseFrame { (s.slot i).hunt with ring := [], wrapped := false } kindBridgeEnter 0 [])

/-- The deferred OPEN_BRIDGE gives its place to its receipt (R186). -/
theorem SoundWithin.resolveDeferred (h : SoundWithin n s) (i : SlotId) : SoundWithin n (s.resolveDeferred i) := by
  unfold State.resolveDeferred; split
  · next tag j idleClass hp =>
    split
    · obtain ⟨m, rfl, hends⟩ := h.requestEnds hp
      dsimp only
      split
      · exact (hends.openBridgeOn i idleClass).answer
      · exact hends.answer
    · exact h
  · exact h

theorem SoundWithin.stopSlot (h : SoundWithin n s) (i : SlotId) (c : DropCause) (dest : SlotState) :
    SoundWithin n (s.stopSlot i c dest) :=
  ((h.dropAll i c).modSlot i (by rfl)).resolveDeferred i

theorem SoundWithin.writeFault (h : SoundWithin n s) (i : SlotId) (c : FaultCause) (d : Half) :
    SoundWithin n (s.writeFault i c d) := by
  unfold State.writeFault; split
  · exact h
  · exact (h.modSlot i (by rfl)).raise i _

theorem SoundWithin.enterFault (h : SoundWithin n s) (i : SlotId) (c : FaultCause) (d : Half) :
    SoundWithin n (s.enterFault i c d) :=
  ((h.stopSlot i _ _).modSlot i (by rfl)).writeFault i c d

theorem SoundWithin.enterInhibited (h : SoundWithin n s) (i : SlotId) (c : DropCause) :
    SoundWithin n (s.enterInhibited i c) :=
  (h.stopSlot i c _).raise i _

/-! ### Power-up, boot and recovery -/

theorem SoundWithin.enterPowering (h : SoundWithin n s) (i : SlotId) : SoundWithin n (s.enterPowering i) := h.modSlot i rfl

theorem SoundWithin.enterBooting (h : SoundWithin n s) (i : SlotId) : SoundWithin n (s.enterBooting i) := h.modSlot i rfl

theorem SoundWithin.enterRecovering (h : SoundWithin n s) (i : SlotId) (c : RestartCause) :
    SoundWithin n (s.enterRecovering i c) :=
  ((h.releaseReference i).modSlot i (by rfl)).raise i _

theorem SoundWithin.recoveryDecision (h : SoundWithin n s) (i : SlotId) (c : FaultCause) (d : Half) :
    SoundWithin n (s.recoveryDecision i c d) := by
  unfold State.recoveryDecision; split
  · exact ((h.modSlot i (by rfl)).enterRecovering i _).resolveDeferred i
  · exact h.enterFault i c d

theorem SoundWithin.keepNestCode (h : SoundWithin n s) (i : SlotId) : SoundWithin n (s.keepNestCode i) := by
  unfold State.keepNestCode; split
  · exact h.modSlot i rfl
  · exact h

theorem SoundWithin.admitSeated (h : SoundWithin n s) (i : SlotId) : SoundWithin n (s.admitSeated i) := by
  have hk := h.keepNestCode i
  unfold State.admitSeated; dsimp only; split
  · exact (hk.modSlot i (by rfl)).writeFault i _ _
  split
  · exact (hk.modSlot i (by rfl)).enterPowering i
  · exact hk.modSlot i rfl

theorem SoundWithin.attachVacant (h : SoundWithin n s) (i : SlotId) : SoundWithin n (s.attachVacant i) := by
  unfold State.attachVacant; split
  · exact h.modSlot i rfl
  · exact h.admitSeated i

theorem SoundWithin.leaveInhibited (h : SoundWithin n s) (i : SlotId) : SoundWithin n (s.leaveInhibited i) := by
  unfold State.leaveInhibited; split
  · exact h.modSlot i rfl
  split
  · exact h.admitSeated i
  · exact h.modSlot i rfl

theorem SoundWithin.clearFault (h : SoundWithin n s) (i : SlotId) : SoundWithin n (s.clearFault i) := by
  have hcleared : SoundWithin n (s.modSlot i fun x => { x with faultRecord := none }) := h.modSlot i rfl
  unfold State.clearFault; dsimp only; split
  · split
    · exact (hcleared.keepNestCode i).writeFault i _ _
    · exact (hcleared.keepNestCode i).modSlot i rfl
  · exact hcleared.modSlot i rfl

/-! ### Members, streams and aborts -/

theorem SoundWithin.startExchange (h : SoundWithin n s) (i : SlotId) (target : Nat) (p : ExchangePurpose) :
    SoundWithin n (s.startExchange i target p) :=
  h.raiseFrame i rfl

theorem SoundWithin.enterAborting (h : SoundWithin n s) (i : SlotId) : SoundWithin n (s.enterAborting i) :=
  (h.releaseReference i).raiseFrame i rfl

theorem SoundWithin.abortWith (h : SoundWithin n s) (i : SlotId) (body : ReportBody) : SoundWithin n (s.abortWith i body) :=
  (h.modSlot i (by rfl)).enterAborting i

theorem SoundWithin.startMember (h : SoundWithin n s) (i : SlotId) (e : QueueEntry) : SoundWithin n (s.startMember i e) := by
  unfold State.startMember; dsimp only; split
  · exact (h.raiseFrame i (by rfl)).report i _
  split
  · exact ((h.raiseFrame i (by rfl)).report i _).modImage _
  · exact (((h.raiseFrame i (by rfl)).report i _).report i _).enterAborting i

theorem SoundWithin.readyWork (h : SoundWithin n s) (i : SlotId) : SoundWithin n (s.readyWork i) := by
  unfold State.readyWork; dsimp only; split
  · exact h
  split
  · exact h.startExchange i _ _
  split
  · exact h
  · exact (h.modSlot i (by rfl)).startMember i _

theorem SoundWithin.streamWork (h : SoundWithin n s) (i : SlotId) : SoundWithin n (s.streamWork i) := by
  unfold State.streamWork; dsimp only; split
  · exact h
  split
  · exact h.startExchange i _ _
  · exact h.noteAlone.modSlot i ((waits_modStream _ _).trans (waits_sendChunk _))

theorem SoundWithin.slotWork (h : SoundWithin n s) (i : SlotId) : SoundWithin n (s.slotWork i) := by
  unfold State.slotWork
  refine SoundWithin.grant ?_
  split
  · exact h.readyWork i
  · exact h.streamWork i
  · exact h

/-! ### The slot link -/

theorem SoundWithin.becomeReady (h : SoundWithin n s) (i : SlotId) : SoundWithin n (s.becomeReady i) :=
  ((h.modSlot i (by rfl)).raiseAgentUp i).slotWork i

theorem SoundWithin.bootExchange (h : SoundWithin n s) (i : SlotId) : SoundWithin n (s.bootExchange i) := by
  unfold State.bootExchange; split
  · exact h.becomeReady i
  · exact h.startExchange i _ _

theorem SoundWithin.loseScore (h : SoundWithin n s) (i : SlotId) (v : Nat) : SoundWithin n (s.loseScore i v) := by
  unfold State.loseScore; dsimp only; split
  · exact (h.modSlot i (by rfl)).enterFault i _ _
  · exact (h.modSlot i (by rfl)).slotWork i

theorem SoundWithin.restartSelf (h : SoundWithin n s) (i : SlotId) : SoundWithin n (s.restartSelf i) :=
  ((h.modSlot i (by rfl)).raise i _).resolveDeferred i

theorem SoundWithin.takeHello (h : SoundWithin n s) (i : SlotId) (a : AgentIdentity) : SoundWithin n (s.takeHello i a) := by
  have hgreeted : SoundWithin n (s.modSlot i fun x => x.greet a) := h.modSlot i rfl
  unfold State.takeHello; dsimp only
  refine SoundWithin.bootExchange ?_ i
  split
  iterate 4 exact (hgreeted.dropInFlight i _).restartSelf i
  · exact hgreeted.modSlot i rfl

theorem SoundWithin.sequenceError (h : SoundWithin n s) (i : SlotId) (seq : Byte) : SoundWithin n (s.sequenceError i seq) :=
  (h.modSlot i (by rfl)).loseScore i 12

theorem SoundWithin.formatError (h : SoundWithin n s) (i : SlotId) (kind : Byte) : SoundWithin n (s.formatError i kind) := by
  unfold State.formatError; split
  · exact h.loseScore i 8
  · exact (h.modSlot i (by rfl)).loseScore i 8

theorem SoundWithin.crcError (h : SoundWithin n s) (i : SlotId) : SoundWithin n (s.crcError i) := by
  unfold State.crcError; dsimp only; split
  · split
    · exact h.modSlot i rfl
    · exact (h.modSlot i (by rfl)).loseScore i 8
  · exact h

/-- A received frame keeps the uplink sound when what handles it does. -/
theorem SoundWithin.receive (h : SoundWithin n s) (i : SlotId) (f : Frame) (detector : Bool) {early good : State → State}
    (he : ∀ s, SoundWithin n s → SoundWithin n (early s)) (hg : ∀ s, SoundWithin n s → SoundWithin n (good s)) :
    SoundWithin n (s.receive i f detector early good) := by
  have htaken : SoundWithin n (s.modSlot i fun x => x.frameTaken detector) := h.modSlot i (waits_frameTaken _ detector)
  unfold State.receive; dsimp only; split
  · exact htaken
  · exact htaken.takeHello i _
  · exact he _ htaken
  · exact htaken.sequenceError i _
  · exact htaken.formatError i _
  · exact (hg _ (htaken.modSlot i (by rfl))).slotWork i

theorem SoundWithin.appendText (h : SoundWithin n s) (i : SlotId) (p : List Byte) : SoundWithin n (s.appendText i p) := by
  have hpushed : SoundWithin n (s.modSlot i fun x => p.foldl Slot.pushByte x) := h.modSlot i (waits_pushBytes p _)
  unfold State.appendText; dsimp only; split
  · exact hpushed.raise i _
  · exact hpushed

theorem SoundWithin.exchangeSucceeds (h : SoundWithin n s) (i : SlotId) (e : Exchange) :
    SoundWithin n (s.exchangeSucceeds i e) := by
  unfold State.exchangeSucceeds; split
  · exact (h.modSlot i (by rfl)).becomeReady i
  · exact (h.modSlot i (waits_stepDown _ _)).resolveDeferred i

theorem SoundWithin.takeLinkAck (h : SoundWithin n s) (i : SlotId) (p : List Byte) : SoundWithin n (s.takeLinkAck i p) := by
  unfold State.takeLinkAck; split
  · split
    · exact h.exchangeSucceeds i _
    · exact h
  · exact h

theorem SoundWithin.takeResult (h : SoundWithin n s) (i : SlotId) (service : Byte) (p : List Byte) :
    SoundWithin n (s.takeResult i service p) := by
  have hreleased := h.releaseReference i
  unfold State.takeResult; split
  · exact hreleased.modSlot i rfl
  · exact hreleased.modSlot i rfl
  · exact hreleased.modSlot i rfl
  · exact h

theorem SoundWithin.takeCredit (h : SoundWithin n s) (i : SlotId) (p : List Byte) : SoundWithin n (s.takeCredit i p) := by
  unfold State.takeCredit; split
  · exact h.modSlot i (waits_modStream _ _)
  · exact h

theorem SoundWithin.takeFrame (h : SoundWithin n s) (i : SlotId) (f : Frame) : SoundWithin n (s.takeFrame i f) := by
  unfold State.takeFrame; split
  · exact h.receive i f _ (fun _ hs => hs.appendText i _) fun _ hs => hs.appendText i _
  split
  · exact h.receive i f _ (fun _ hs => hs) fun _ hs => hs.takeLinkAck i _
  split
  · exact h.receive i f _ (fun _ hs => hs) fun _ hs => hs.takeResult i _ _
  split
  · exact h.receive i f _ (fun _ hs => hs) fun _ hs => hs.takeCredit i _
  · exact h.receive i f _ (fun _ hs => hs) fun _ hs => hs

theorem SoundWithin.takeByte (h : SoundWithin n s) (i : SlotId) (b : Byte) : SoundWithin n (s.takeByte i b) := by
  unfold State.takeByte; split
  · split
    · exact h.modSlot i rfl
    · exact h
  dsimp only; split
  · exact h.modSlot i rfl
  split
  · exact h.crcError i
  split
  · exact h.modSlot i rfl
  split
  · exact h.takeFrame i _
  · exact h.crcError i

theorem SoundWithin.frameSent (h : SoundWithin n s) (i : SlotId) (kind : Byte) {effect : Slot → Slot}
    (he : ∀ x, waits (effect x) = waits x) : SoundWithin n (s.frameSent i kind effect) := by
  unfold State.frameSent; split
  · refine SoundWithin.slotWork (h.modSlot i ?_) i
    refine (waits_of_sendsAs (Slot.frameEnded_sendsAs _)).trans ?_
    split
    · rfl
    · exact he _
  · exact h

/-! ### The bridge -/

theorem SoundWithin.buildBridgeOut (h : SoundWithin n s) (i : SlotId) (start : Bool) :
    SoundWithin n (s.buildBridgeOut i start) := by
  unfold State.buildBridgeOut; dsimp only; split
  · next hbuild =>
    simp only [Bool.and_eq_true, Bool.not_eq_true'] at hbuild
    obtain ⟨⟨-, hwaiting⟩, -⟩ := hbuild
    split
    · exact h.queueBridgeOut hwaiting
    split
    · exact h.modSlot i rfl
    · exact h
  · exact h

theorem SoundWithin.leaveBridge (h : SoundWithin n s) (i : SlotId) : SoundWithin n (s.leaveBridge i) := h.modSlot i rfl

/-! ### The fan-out engine -/

theorem SoundWithin.withOps (h : SoundWithin n s) (l : List Operation) : SoundWithin n { s with ops := l } :=
  h.of_keepsBut (withOps_keeps s l) (by decide)

theorem SoundWithin.modOp (h : SoundWithin n s) (tag : Tag) {f : Operation → Operation} : SoundWithin n (s.modOp tag f) :=
  h.withOps _

theorem SoundWithin.complete (h : SoundWithin n s) (tag : Tag) (v : Verdict) : SoundWithin n (s.complete tag v) := by
  unfold State.complete; split
  · exact (h.modOp tag).sendGather _
  · exact h

theorem SoundWithin.cancelMembers (h : SoundWithin n s) (tag : Tag) (c : CancelCause) :
    SoundWithin n (s.cancelMembers tag c) := by
  unfold State.cancelMembers; split
  · exact (h.modOp tag).foldl (fun _ j hs => hs.ask j _) _
  · exact h

theorem SoundWithin.evaluate (h : SoundWithin n s) (tag : Tag) : SoundWithin n (s.evaluate tag) := by
  unfold State.evaluate; split
  · split
    · split
      · exact (h.cancelMembers tag _).complete tag _
      · exact h
    · exact h
  · exact h

theorem SoundWithin.endMember (h : SoundWithin n s) (tag : Tag) (i : SlotId) (admits : MemberStatus → Bool)
    (st : Operation → Member → MemberStatus) : SoundWithin n (s.endMember tag i admits st) := by
  unfold State.endMember; split
  · split
    · split
      · split
        · exact (h.modOp tag).evaluate tag
        · exact h
      · exact h
    · exact h
  · exact h

theorem SoundWithin.takeAppend (h : SoundWithin n s) (i : SlotId) (e : QueueEntry) : SoundWithin n (s.takeAppend i e) := by
  unfold State.takeAppend; dsimp only; split
  · exact (h.modSlot i (by rfl)).slotWork i
  · exact h.endMember _ i _ _

theorem SoundWithin.takeWithdraw (h : SoundWithin n s) (i : SlotId) (tag : Tag) : SoundWithin n (s.takeWithdraw i tag) := by
  unfold State.takeWithdraw; dsimp only; split
  · exact h.modSlot i rfl
  split
  · split
    · split
      · exact h.modSlot i rfl
      · exact h.enterAborting i
      · exact h
    · exact h
  · exact h

theorem SoundWithin.takeRequest (h : SoundWithin n s) (i : SlotId) : SoundWithin n (s.takeRequest i) := by
  unfold State.takeRequest; split
  · exact h
  dsimp only; split
  · exact (h.modSlot i (by rfl)).takeAppend i _
  · exact (h.modSlot i (by rfl)).takeWithdraw i _

theorem SoundWithin.drain (h : SoundWithin n s) (i : SlotId) : SoundWithin n (s.drain i) :=
  h.foldl (fun _ _ hs => hs.takeRequest i) _

theorem SoundWithin.openOperation (h : SoundWithin n s) (o : Operation) : SoundWithin n (s.openOperation o) := by
  unfold State.openOperation; split
  · exact (h.modOp _).complete _ _
  · exact h.foldl (fun _ j hs => hs.ask j _) _

theorem SoundWithin.acceptOperation (h : SoundWithin n s) (tag : Tag) (kind : Byte) (f : OperationFields)
    (v : SourceValues) (w : Work) : SoundWithin (n + 1) (s.acceptOperation tag kind f v w) := by
  have hdrained := h.foldl (fun _ j hs => hs.drain j) (slotsOf v.set)
  unfold State.acceptOperation; dsimp only; split
  · exact hdrained.answer
  · exact ((hdrained.withOps _).answer).openOperation _

theorem SoundWithin.operate (h : SoundWithin n s) (tag : Tag) (kind : Byte) (f : OperationFields)
    (w : Except ResultCode Work) : SoundWithin (n + 1) (s.operate tag kind f w) := by
  unfold State.operate; split
  · exact h.answer
  · exact h.acceptOperation tag kind f _ _

/-! ### The image store -/

theorem SoundWithin.damageImage (h : SoundWithin n s) (k : ImageId) : SoundWithin n (s.damageImage k) := by
  unfold State.damageImage; split
  · exact (h.modImage k).modSlots fun _ _ => rfl
  · exact h.modImage k
  · exact h.modImage k
  · exact h

theorem SoundWithin.chargeWords (h : SoundWithin n s) (k : ImageId) (first len : Nat) :
    SoundWithin n (s.chargeWords k first len) := by
  have hcounted : SoundWithin n (s.countCorrected k (Memory.corrected s.lostBits first len)) := h.modImage k
  unfold State.chargeWords; dsimp only; split
  · exact hcounted.damageImage k
  · exact hcounted

theorem SoundWithin.chargeRead (h : SoundWithin n s) (k : ImageId) (block : Nat) : SoundWithin n (s.chargeRead k block) := by
  unfold State.chargeRead; split
  · exact h.chargeWords k _ _
  · exact h

theorem SoundWithin.deliver (h : SoundWithin n s) (i : SlotId) (block : Nat) (failed : Bool) :
    SoundWithin n (s.deliver i block failed) :=
  h.modSlot i (waits_modStream _ _)

theorem SoundWithin.disturb (h : SoundWithin n s) (first len : Nat) (one two : List Nat) :
    SoundWithin n (s.disturb first len one two) :=
  h.of_keepsBut (disturb_keeps s first len one two) (by decide)

theorem SoundWithin.clearBlocks (h : SoundWithin n s) (first len : Nat) : SoundWithin n (s.clearBlocks first len) :=
  h.of_keepsBut (clearBlocks_keeps s first len) (by decide)

theorem SoundWithin.endJob (h : SoundWithin n s) : SoundWithin n s.endJob := h.of_keepsBut (endJob_keeps s) (by decide)

theorem SoundWithin.withGranted (h : SoundWithin n s) (g : Option Grant) : SoundWithin n { s with granted := g } :=
  h.of_keepsBut (withArbiter_keeps s g s.arbiterPointer) (by decide)

theorem SoundWithin.releaseEngine (h : SoundWithin n s) : SoundWithin n s.releaseEngine := by
  unfold State.releaseEngine; split
  · exact h.withGranted none
  · exact h

theorem SoundWithin.engineBlock (h : SoundWithin n s) (j : Job) : SoundWithin n (s.engineBlock j) := by
  cases j with
  | clear k => exact (h.clearBlocks _ _).of_keepsBut (withJobs_keeps _ _ _) (by decide)
  | verify k =>
    have hcharged := h.chargeWords k (Config.blockWords * ((s.image k).firstBlock + s.engineBlocks)) Config.blockWords
    simp only [State.engineBlock]; split
    · exact hcharged.endJob
    · exact hcharged.of_keepsBut (withJobs_keeps _ _ _) (by decide)

theorem SoundWithin.endEngineAccess (h : SoundWithin n s) : SoundWithin n s.endEngineAccess := by
  unfold State.endEngineAccess; split
  · split
    · refine SoundWithin.grant (SoundWithin.withGranted ?_ none)
      split
      · exact h
      · exact h.engineBlock _
    · exact (h.withGranted none).grant
  · exact h.grant

theorem SoundWithin.written (h : SoundWithin n s) (k : ImageId) (offset : Nat) (data : List Byte) :
    SoundWithin n (ImageStore.written s k offset data) := by
  have hstored : SoundWithin n (ImageStore.stored s k offset data) := h.of_same rfl rfl fun _ => rfl
  obtain ⟨c, hw | hw⟩ := ImageStore.written_cases s k offset data <;> rw [hw]
  · exact hstored.countCorrected k c
  · exact (hstored.countCorrected k c).damageImage k

/-- One access of the IMAGE_WRITE in progress: the last one gives the write's place to its receipt (R186). -/
theorem SoundWithin.writeAccess (h : SoundWithin n s) {q : InProgress} (hp : s.port.inProgress = some q) (tag : Tag)
    (k : ImageId) (offset : Nat) (data : List Byte) (discard : Bool) :
    SoundWithin n (s.writeAccess tag k offset data discard) := by
  have hv := h.written k offset data
  have hvp := (congrArg Port.inProgress (ImageStore.written_port s k offset data)).trans hp
  rw [ImageStore.writeAccess_eq]
  generalize ImageStore.written s k offset data = v at *
  dsimp only
  split
  · obtain ⟨m, rfl, hends⟩ := hv.requestEnds hvp
    refine SoundWithin.grant ?_
    split
    · exact hends.mono (Nat.le_succ m)
    · exact hends.answer
  · exact (hv.withPort (by simp [hvp])).grant

/-! ### The resets and the port -/

theorem SoundWithin.raisePlaced (h : SoundWithin n s) (i : SlotId) : SoundWithin n (s.raisePlaced i) := by
  unfold State.raisePlaced; split
  · exact h.raise i _
  · exact h

theorem SoundWithin.evaluatePresence (h : SoundWithin n s) (i : SlotId) : SoundWithin n (s.evaluatePresence i) := by
  unfold State.evaluatePresence; dsimp only; split
  · split
    · exact (h.raise i _).attachVacant i
    · exact h.raise i _
  · exact h

theorem SoundWithin.placeSlots (h : SoundWithin n s) : SoundWithin n s.placeSlots :=
  (h.foldl (fun _ i hs => hs.raisePlaced i) _).foldl (fun _ i hs => hs.evaluatePresence i) _

/-- Power-on reset empties the uplink and clears every flag, and the placement raises its events on that (R29, R194). -/
theorem powerUp_soundWithin (s : State) (banksHigh ceilingHigh : Bool) : SoundWithin n (s.powerUp banksHigh ceilingHigh) := by
  refine SoundWithin.placeSlots (soundWithin_of_cleared ?_ ?_ ?_ fun i => ?_)
  · rw [modSlots_keeps _ _ .uplink (by decide), modSlots_keeps _ _ .port (by decide)]
    exact Nat.zero_le n
  · rw [modSlots_keeps _ _ .uplink (by decide)]; rfl
  · rw [modSlots_keeps _ _ .uplink (by decide)]; rfl
  · rw [slot_modSlots]
    unfold Slot.atPowerOn; dsimp only; split <;> rfl

theorem SoundWithin.endHold (h : SoundWithin n s) : SoundWithin n s.endHold := h.withPort le_rfl

/-- A RESTART keeps the receipts, empties the other queues and clears every flag (R193). -/
theorem SoundWithin.restartEffects (h : SoundWithin n s) : SoundWithin n s.restartEffects := by
  refine SoundWithin.endHold (SoundWithin.placeSlots (soundWithin_of_cleared ?_ ?_ ?_ fun i => ?_))
  · rw [modSlots_keeps _ _ .uplink (by decide), modSlots_keeps _ _ .port (by decide)]
    exact h.room
  · rw [modSlots_keeps _ _ .uplink (by decide)]; rfl
  · rw [modSlots_keeps _ _ .uplink (by decide)]; rfl
  · rw [slot_modSlots]
    unfold Slot.atRestart; dsimp only; split <;> rfl

theorem SoundWithin.detachOperations (h : SoundWithin n s) : SoundWithin n s.detachOperations := by
  refine SoundWithin.withOps (h.foldl (fun t o ht => ?_) _) []
  split
  · exact ht.foldl (fun _ j hs => hs.ask j _) _
  · exact ht

theorem length_detached (q : Option InProgress) : (q.bind InProgress.detached).toList.length ≤ q.toList.length := by
  cases q with
  | none => exact le_rfl
  | some q => cases q <;> simp [InProgress.detached]

/-- A detach empties the uplink and clears every flag (R183, R189). -/
theorem SoundWithin.detachPort (h : SoundWithin n s) : SoundWithin n s.detachPort := by
  have hcleared : SoundWithin n
      ((FanOut.unplugged s).modSlots fun _ x => { x with noticeWaiting := false, messageWaiting := false }) := by
    refine soundWithin_of_cleared ?_ ?_ ?_ fun i => ?_
    · rw [modSlots_keeps _ _ .uplink (by decide), modSlots_keeps _ _ .port (by decide)]
      have hroom := h.room
      have hdetached := length_detached s.port.inProgress
      change 0 + (s.port.inProgress.bind InProgress.detached).toList.length ≤ n
      omega
    · rw [modSlots_keeps _ _ .uplink (by decide)]; rfl
    · rw [modSlots_keeps _ _ .uplink (by decide)]; rfl
    · rw [slot_modSlots]; rfl
  refine hcleared.detachOperations.foldl (fun t j ht => ?_) _
  split
  · exact ht.leaveBridge j
  · exact ht

theorem SoundWithin.tick (h : SoundWithin n s) : SoundWithin n s.tick := by
  unfold State.tick; split
  · exact h
  · have hcount : SoundWithin n { s with now := s.now + 1 } := h.of_same rfl rfl fun _ => rfl
    refine hcount.modSlots fun _ x => (waits_lineStep _).trans ?_
    split <;> rfl

end Sys2Proof.Machine.UplinkQueues
end

section
/-! PROOF. Every command keeps the uplink sound (R168, R169, R178, R179, R186, R188). -/

namespace Sys2Proof.Machine.UplinkQueues

variable {s t : State} {tag : Tag} {i : SlotId}

/-- Wherever an outcome goes on, the uplink is sound with its eight places. -/
def goesOnSound (out : Host.Outcome State Fault Refusal) : Prop := ∀ t, out = .next t → SoundWithin 8 t

theorem goesOnSound_next (h : SoundWithin 8 t) : goesOnSound (.next t) := fun _ ht => by cases ht; exact h

theorem goesOnSound_fault (r : Fault) : goesOnSound (.fault r) := fun _ h => by cases h

/-! ### Requests -/

/-- A request is taken with a place free among the receipts and no other request in progress (R186). -/
theorem SoundWithin.of_intakeOpen (h : SoundWithin 8 s) (ho : s.intakeOpen = true) : SoundWithin 7 s := by
  simp only [State.intakeOpen, Bool.and_eq_true, Option.isNone_iff_eq_none] at ho
  obtain ⟨⟨⟨-, hp⟩, -⟩, hr⟩ := ho
  refine { h with room := ?_ }
  rw [hp]
  exact Nat.le_of_lt_succ (of_decide_eq_true hr)

theorem SoundWithin.request (h : SoundWithin 8 s) {run : State → State}
    (hrun : ∀ s, SoundWithin 7 s → SoundWithin 8 (run s)) : SoundWithin 8 (s.request run) := by
  unfold State.request; split
  · next ho => exact hrun s (h.of_intakeOpen ho)
  · exact h

/-- A request keeps the uplink sound when its run fills no more than the place it found. -/
theorem SoundWithin.requestWith (h : SoundWithin 8 s) {α : Type} {kind : Byte} {body : Body α} {run : α → State → State}
    (hrun : ∀ f s, SoundWithin 7 s → SoundWithin 8 (run f s)) : SoundWithin 8 (s.requestWith tag kind body run) := by
  refine h.request fun u hu => ?_
  cases body with
  | shaped f => exact hrun f u hu
  | misshapen b => exact hu.answer

theorem SoundWithin.onSlot (h : SoundWithin 7 s) {kind number : Byte} {run : SlotId → State}
    (hrun : ∀ i, SoundWithin 8 (run i)) : SoundWithin 8 (s.onSlot tag kind number run) := by
  unfold State.onSlot; split
  · exact h.answer
  · exact hrun _

theorem SoundWithin.actOn {n : Nat} {allows : Slot → Bool} {act : State → SlotId → State}
    (hact : ∀ s i, SoundWithin n s → SoundWithin n (act s i)) (l : List SlotId) (h : SoundWithin n s) :
    SoundWithin n (s.actOn allows act l).1 := by
  induction l generalizing s with
  | nil => exact h
  | cons i l ih =>
    unfold State.actOn; split
    · exact ih (hact s i h)
    · exact ih h

theorem SoundWithin.control (h : SoundWithin 7 s) {kind : Byte} {set : SlotSet} {mask : Half} {allows : Slot → Bool}
    {act : State → SlotId → State} (hact : ∀ s i, SoundWithin 7 s → SoundWithin 7 (act s i)) :
    SoundWithin 8 (s.control tag kind set mask allows act) := by
  unfold State.control; split
  · exact h.answer
  · exact (h.actOn hact _).answer

/-- An action of SLOT_CONTROL keeps the uplink sound when what it does to each slot does. -/
theorem slotControl_sound (hs : SoundWithin 8 s) {body : Body SlotSet} {allows : Slot → Bool}
    {act : State → SlotId → State} (hact : ∀ s i, SoundWithin 7 s → SoundWithin 7 (act s i)) :
    goesOnSound (.next (s.slotControl tag body allows act)) :=
  goesOnSound_next (hs.requestWith fun _ _ h => h.control hact)

/-- A request whose run answers in every case. -/
theorem request_sound (hs : SoundWithin 8 s) {α : Type} {kind : Byte} {body : Body α} {run : α → State → State}
    (hrun : ∀ f s, SoundWithin 7 s → SoundWithin 8 (run f s)) : goesOnSound (.next (s.requestWith tag kind body run)) :=
  goesOnSound_next (hs.requestWith hrun)

/-! ### The port and the resets -/

theorem hostPortConfigured_sound (hs : SoundWithin 8 s) : goesOnSound (execHostPortConfigured s) :=
  goesOnSound_next (hs.withPort (p := { s.port with configured := true }) le_rfl).arbitrate

theorem hostPortDetach_sound (hs : SoundWithin 8 s) : goesOnSound (execHostPortDetach s) := by
  refine goesOnSound_next ?_
  split
  · exact hs.detachPort
  · exact hs

theorem malformedTransfer_sound (hs : SoundWithin 8 s) (bytes : List Byte) : goesOnSound (execMalformedTransfer bytes s) := by
  refine goesOnSound_next (hs.request fun s h => ?_)
  split
  · exact h.answer
  · exact h.mono (by decide)

theorem restart_sound (hs : SoundWithin 8 s) (body : Body Unit) : goesOnSound (execRestart tag body s) :=
  request_sound hs fun _ s h => (h.withPort (p := { s.port with intakeHold := true }) le_rfl).answer

/-! ### Slot control, the tables and the events -/

theorem setProfile_sound (hs : SoundWithin 8 s) (body : Body ProfileFields) : goesOnSound (execSetProfile tag body s) := by
  refine request_sound hs fun f s h => ?_
  split
  · exact h.answer
  split
  · exact h.answer
  · exact (h.foldl (fun _ i hs => hs.modSlot i (waits_writeProfile _ f _)) _).answer

theorem powerOn_sound (hs : SoundWithin 8 s) (body : Body SlotSet) : goesOnSound (execPowerOn tag body s) :=
  slotControl_sound hs fun _ i h => (h.modSlot i (by rfl)).enterPowering i

theorem powerOff_sound (hs : SoundWithin 8 s) (body : Body SlotSet) : goesOnSound (execPowerOff tag body s) :=
  slotControl_sound hs fun _ i h => h.stopSlot i _ _

theorem cycle_sound (hs : SoundWithin 8 s) (body : Body SlotSet) : goesOnSound (execCycle tag body s) :=
  slotControl_sound hs fun _ i h => (h.stopSlot i _ _).enterRecovering i _

theorem resetSlot_sound (hs : SoundWithin 8 s) (body : Body SlotSet) : goesOnSound (execResetSlot tag body s) :=
  slotControl_sound hs fun _ i h => (h.stopSlot i _ _).modSlot i rfl

theorem clearFault_sound (hs : SoundWithin 8 s) (body : Body SlotSet) : goesOnSound (execClearFault tag body s) :=
  slotControl_sound hs fun _ i h => h.clearFault i

theorem disable_sound (hs : SoundWithin 8 s) (body : Body SlotSet) : goesOnSound (execDisable tag body s) := by
  refine slotControl_sound hs fun s i h => ?_
  have hflag : SoundWithin 7 (s.modSlot i fun x => { x with disabled := true }) := h.modSlot i rfl
  dsimp only; split
  · exact hflag
  · exact hflag.enterInhibited i _

theorem enable_sound (hs : SoundWithin 8 s) (body : Body SlotSet) : goesOnSound (execEnable tag body s) := by
  refine slotControl_sound hs fun s i h => ?_
  have hflag : SoundWithin 7 (s.modSlot i fun x => { x with disabled := false }) := h.modSlot i rfl
  dsimp only; split
  · exact hflag.leaveInhibited i
  · exact hflag

theorem querySlots_sound (hs : SoundWithin 8 s) (body : Body SlotSet) : goesOnSound (execQuerySlots tag body s) := by
  refine request_sound hs fun _ s h => ?_
  split <;> exact h.answer

theorem measure_sound (hs : SoundWithin 8 s) (body : Body SlotSet) : goesOnSound (execMeasure tag body s) := by
  refine request_sound hs fun _ s h => ?_
  split <;> exact h.answer

theorem pressKey_sound (hs : SoundWithin 8 s) (body : Body PressKeyFields) : goesOnSound (execPressKey tag body s) :=
  request_sound hs fun _ _ h => h.control fun _ i h => h.modSlot i rfl

theorem SoundWithin.setGroup {n : Nat} (h : SoundWithin n s) (k : Nat) (g : Option Group) : SoundWithin n (s.setGroup k g) :=
  h.of_keepsBut (Tables.setGroup_keeps s k g) (by decide)

theorem defineGroup_sound (hs : SoundWithin 8 s) (body : Body GroupFields) : goesOnSound (execDefineGroup tag body s) := by
  refine request_sound hs fun f s h => ?_
  split
  · exact h.answer
  split
  · exact h.answer
  · exact (h.setGroup _ _).answer

theorem undefineGroup_sound (hs : SoundWithin 8 s) (body : Body GroupFields) :
    goesOnSound (execUndefineGroup tag body s) := by
  refine request_sound hs fun f s h => ?_
  split
  · exact h.answer
  · exact (h.setGroup _ _).answer

theorem SoundWithin.withFixture {n : Nat} (h : SoundWithin n s) (x : Option (Vector Byte 24)) :
    SoundWithin n { s with fixture := x } :=
  h.of_keepsBut (Tables.withFixture_keeps s x) (by decide)

theorem setFixtureLoad_sound (hs : SoundWithin 8 s) (body : Body (Vector Byte 24)) :
    goesOnSound (execSetFixtureLoad tag body s) := by
  refine request_sound hs fun codes s h => ?_
  split
  · exact h.answer
  split
  · exact h.answer
  · exact (h.withFixture _).answer

theorem setFixtureClear_sound (hs : SoundWithin 8 s) (body : Body (Vector Byte 24)) :
    goesOnSound (execSetFixtureClear tag body s) :=
  request_sound hs fun _ _ h => (h.withFixture none).answer

theorem setTranslation_sound (hs : SoundWithin 8 s) (body : Body TranslationFields) :
    goesOnSound (execSetTranslation tag body s) := by
  refine request_sound hs fun f s h => ?_
  split
  · exact h.answer
  split
  · exact h.answer
  split
  · exact h.answer
  · exact (h.foldl (fun _ i hs => hs.modSlot i (by rfl)) _).answer

theorem readEvents_sound (hs : SoundWithin 8 s) (body : Body SlotSet) : goesOnSound (execReadEvents tag body s) := by
  refine request_sound hs fun set s h => ?_
  split
  · exact h.answer
  · exact (h.foldl (fun _ i hs => hs.modSlot i (by rfl)) _).answer

theorem setNoticeMask_sound (hs : SoundWithin 8 s) (body : Body Half) : goesOnSound (execSetNoticeMask tag body s) := by
  refine request_sound hs fun m s h => ?_
  split
  · exact h.answer
  · have hmask : SoundWithin 7 { s with noticeMask := m.setWidth 8 } := h.of_same rfl rfl fun _ => rfl
    exact hmask.answer.foldl (fun _ i hs => hs.noticeIfPending _ i) _

/-! ### Operations -/

theorem cancel_sound (hs : SoundWithin 8 s) (body : Body Tag) : goesOnSound (execCancel tag body s) := by
  refine request_sound hs fun target s h => ?_
  split
  · exact h.answer
  split
  · exact (h.answer.cancelMembers target _).complete target _
  · exact h.answer

theorem append_sound (hs : SoundWithin 8 s) (i : SlotId) : goesOnSound (execAppend i s) := by
  refine goesOnSound_next ?_
  split
  · exact hs.takeRequest i
  · exact hs

theorem withdraw_sound (hs : SoundWithin 8 s) (i : SlotId) : goesOnSound (execWithdraw i s) := by
  refine goesOnSound_next ?_
  split
  · exact hs.takeRequest i
  · exact hs

theorem SoundWithin.popReport {n : Nat} (h : SoundWithin n s) (i : SlotId) : SoundWithin n (s.popReport i) := h.modSlot i rfl

theorem startReport_sound (hs : SoundWithin 8 s) (i : SlotId) : goesOnSound (execStartReport i s) := by
  refine goesOnSound_next ?_
  split
  · exact (hs.popReport i).modOp _
  · exact hs

theorem resultReport_sound (hs : SoundWithin 8 s) (i : SlotId) : goesOnSound (execResultReport i s) := by
  refine goesOnSound_next ?_
  split
  · exact (hs.popReport i).endMember _ i _ _
  · exact hs

theorem windowExpiryReport_sound (hs : SoundWithin 8 s) (i : SlotId) : goesOnSound (execWindowExpiryReport i s) := by
  refine goesOnSound_next ?_
  split
  · exact (hs.popReport i).endMember _ i _ _
  · exact hs

theorem queueLimitReport_sound (hs : SoundWithin 8 s) (i : SlotId) : goesOnSound (execQueueLimitReport i s) := by
  refine goesOnSound_next ?_
  split
  · exact (hs.popReport i).endMember _ i _ _
  · exact hs

theorem dropReport_sound (hs : SoundWithin 8 s) (i : SlotId) : goesOnSound (execDropReport i s) := by
  refine goesOnSound_next ?_
  split
  · exact (hs.popReport i).endMember _ i _ _
  · exact hs

theorem streamDamageReport_sound (hs : SoundWithin 8 s) (i : SlotId) : goesOnSound (execStreamDamageReport i s) := by
  refine goesOnSound_next ?_
  split
  · exact (hs.popReport i).endMember _ i _ _
  · exact hs

/-! ### The image store -/

theorem SoundWithin.withJobs {n : Nat} (h : SoundWithin n s) (l : List Job) : SoundWithin n { s with jobs := l } :=
  h.of_keepsBut (withJobs_keeps s l s.engineBlocks) (by decide)

theorem imageDefine_sound (hs : SoundWithin 8 s) (body : Body ImageDefineFields) :
    goesOnSound (execImageDefine tag body s) := by
  refine request_sound hs fun f s h => ?_
  split
  · exact h.answer
  split
  · exact h.answer
  split
  · exact h.answer
  · exact ((h.modImage _).withJobs _).answer.grant

/-- An accepted IMAGE_WRITE holds the place of its receipt (R186). -/
theorem imageWrite_sound (hs : SoundWithin 8 s) (body : Body ImageWriteFields) : goesOnSound (execImageWrite tag body s) := by
  refine request_sound hs fun f s h => ?_
  split
  · exact h.answer
  · exact h.mono (by decide)
  · exact ((h.noteAlone.modImage _).requestBegins _).grant

theorem imageCommit_sound (hs : SoundWithin 8 s) (body : Body ImageCommitFields) :
    goesOnSound (execImageCommit tag body s) := by
  refine request_sound hs fun f s h => ?_
  split
  · exact h.answer
  split
  · exact ((h.modImage _).withJobs _).answer.grant
  · exact h.answer

theorem imageRelease_sound (hs : SoundWithin 8 s) (body : Body Byte) : goesOnSound (execImageRelease tag body s) := by
  refine request_sound hs fun f s h => ?_
  split
  · exact h.answer
  split
  · exact h.answer
  split
  · exact h.answer
  · exact (h.modImage _).answer

theorem imageWriteAccessDone_sound (hs : SoundWithin 8 s) (one two : List Nat) :
    goesOnSound (execImageWriteAccessDone one two s) := by
  have ht : SoundWithin 8 (if s.granted = some .writePath then s else s.endEngineAccess) := by
    split
    · exact hs
    · exact hs.endEngineAccess
  unfold execImageWriteAccessDone; dsimp only
  generalize (if s.granted = some .writePath then s else s.endEngineAccess) = t at ht ⊢
  split
  · next tag k offset data discard hg hp =>
    split
    · exact goesOnSound_fault _
    · exact goesOnSound_next ((ht.disturb _ _ _ _).writeAccess hp tag _ _ _ _)
  · exact goesOnSound_next hs

theorem streamChunkRead_sound (hs : SoundWithin 8 s) (i : SlotId) (one two : List Nat) :
    goesOnSound (execStreamChunkRead i one two s) := by
  have ht : SoundWithin 8 (if s.granted = some .engine then s.endEngineAccess else s) := by
    split
    · exact hs.endEngineAccess
    · exact hs
  unfold execStreamChunkRead; dsimp only
  generalize (if s.granted = some .engine then s.endEngineAccess else s) = t at ht ⊢
  split
  · split
    · split
      · exact goesOnSound_fault _
      · exact goesOnSound_next (((((ht.withGranted none).disturb _ _ _ _).chargeRead _ _).deliver i _ _).slotWork i)
    · exact goesOnSound_next hs
  · exact goesOnSound_next hs

theorem clearingJobEnd_sound (hs : SoundWithin 8 s) : goesOnSound (execClearingJobEnd s) := by
  refine goesOnSound_next ?_
  split
  · split
    · exact (((hs.grant.clearBlocks _ _).endJob.releaseEngine).modImage _).grant
    · exact hs
  · exact hs

theorem verificationJobEnd_sound (hs : SoundWithin 8 s) (one two : List Nat) :
    goesOnSound (execVerificationJobEnd one two s) := by
  unfold execVerificationJobEnd; dsimp only; split
  · split
    · split
      · exact goesOnSound_fault _
      · refine goesOnSound_next (SoundWithin.grant ?_)
        split
        · exact ((hs.grant.disturb _ _ one two).chargeWords _ _ _).endJob.releaseEngine
        · exact ((hs.grant.disturb _ _ one two).chargeWords _ _ _).endJob.releaseEngine.modImage _
    · exact goesOnSound_next hs
  · exact goesOnSound_next hs

/-! ### The console and the bridge -/

theorem readConsole_sound (hs : SoundWithin 8 s) (body : Body Byte) : goesOnSound (execReadConsole tag body s) := by
  refine request_sound hs fun _ s h => h.onSlot fun i => ?_
  split
  · exact h.answer
  · exact (h.modSlot i (by rfl)).answer

/-- An OPEN_BRIDGE that waits holds the place of its receipt (R186). -/
theorem openBridge_sound (hs : SoundWithin 8 s) (body : Body OpenBridgeFields) : goesOnSound (execOpenBridge tag body s) := by
  refine request_sound hs fun f s h => ?_
  split
  · exact h.answer
  refine h.onSlot fun i => ?_
  split
  · exact h.answer
  split
  · exact h.requestBegins _
  · exact (h.openBridgeOn i _).answer

theorem bridgeData_sound (hs : SoundWithin 8 s) (body : Body BridgeDataFields) : goesOnSound (execBridgeData tag body s) := by
  refine request_sound hs fun f s h => ?_
  split
  · exact h.answer
  split
  · exact h.answer
  refine h.onSlot fun i => ?_
  dsimp only; split
  · exact h.answer
  split
  · exact h.answer
  · exact (h.modSlot i (by rfl)).answer

theorem closeBridge_sound (hs : SoundWithin 8 s) (body : Body Byte) : goesOnSound (execCloseBridge tag body s) := by
  refine request_sound hs fun _ s h => h.onSlot fun i => ?_
  split
  · exact h.answer
  · exact (h.leaveBridge i).answer

theorem bridgeIdleTimerExpiry_sound (hs : SoundWithin 8 s) (i : SlotId) : goesOnSound (execBridgeIdleTimerExpiry i s) := by
  refine goesOnSound_next ?_
  split
  · exact hs.leaveBridge i
  · exact hs

theorem breakEnd_sound (hs : SoundWithin 8 s) (i : SlotId) : goesOnSound (execBreakEnd i s) := by
  refine goesOnSound_next ?_
  split
  · exact hs.modSlot i (waits_of_sendsAs (Slot.transmit_sendsAs _))
  · exact hs

theorem rawByteReceived_sound (hs : SoundWithin 8 s) (i : SlotId) (byte : Byte) :
    goesOnSound (execRawByteReceived i byte s) := by
  refine goesOnSound_next ?_
  split
  · have hpushed : SoundWithin 8 (s.modSlot i fun x => (x.pushByte byte).restartIdle s.now) :=
      hs.modSlot i (waits_pushByte _ byte)
    exact hpushed.buildBridgeOut i _
  split
  · exact hs.takeByte i byte
  · exact hs

theorem bridgeOutGatheringExpiry_sound (hs : SoundWithin 8 s) (i : SlotId) :
    goesOnSound (execBridgeOutGatheringExpiry i s) := by
  refine goesOnSound_next ?_
  split
  · split
    · next hqueue =>
      simp only [Bool.and_eq_true, Bool.not_eq_true'] at hqueue
      obtain ⟨⟨-, hwaiting⟩, -⟩ := hqueue
      exact hs.queueBridgeOut hwaiting
    · exact hs.modSlot i rfl
  · exact hs

theorem bridgeByteSent_sound (hs : SoundWithin 8 s) (i : SlotId) : goesOnSound (execBridgeByteSent i s) := by
  refine goesOnSound_next ?_
  split
  · exact hs.modSlot i rfl
  · exact hs

/-! ### Messages that have been sent or begun -/

theorem receiptSent_sound (hs : SoundWithin 8 s) : goesOnSound (execReceiptSent s) := by
  refine goesOnSound_next ?_
  split
  · next r rest _ hr =>
    have hsent : SoundWithin 8 { s with uplink := { s.uplink.freed with receipts := rest } } := by
      refine hs.congr (le_trans ?_ hs.room) rfl rfl fun _ => rfl
      rw [hr, List.length_cons]
      dsimp only
      omega
    refine SoundWithin.arbitrate ?_
    split
    · exact hsent.restartEffects
    · exact hsent
  · exact hs

theorem gatherReportSent_sound (hs : SoundWithin 8 s) : goesOnSound (execGatherReportSent s) := by
  refine goesOnSound_next ?_
  split
  · exact SoundWithin.arbitrate (hs.congr hs.room rfl rfl fun _ => rfl)
  · exact hs

/-- A BRIDGE_OUT has left the pipe and the queue, and its slot's message waiting field is cleared (R169). -/
def bridgeOutGone (s : State) (m : BridgeOut) (rest : List BridgeOut) : State :=
  State.modSlot { s with uplink := { s.uplink.freed with bridgeOuts := rest } } m.slot
    fun x => { x with messageWaiting := false }

theorem slot_bridgeOutGone (s : State) (m : BridgeOut) (rest : List BridgeOut) (j : SlotId) :
    (bridgeOutGone s m rest).slot j =
      if j = m.slot then { s.slot m.slot with messageWaiting := false } else s.slot j :=
  State.slot_modSlot _ m.slot j _

theorem SoundWithin.bridgeOutGone {n : Nat} (h : SoundWithin n s) {m : BridgeOut} {rest : List BridgeOut}
    (hb : s.uplink.bridgeOuts = m :: rest) : SoundWithin n (bridgeOutGone s m rest) := by
  have hnodup := h.bridgeOuts_nodup
  rw [hb, List.map_cons, List.nodup_cons] at hnodup
  obtain ⟨hm, hrest⟩ := hnodup
  refine ⟨h.room, h.notices_nodup, fun j => ?_, hrest, fun j => ?_⟩
  · rw [slot_bridgeOutGone]
    refine (h.mem_notices j).trans ?_
    split
    · next hj => rw [hj]
    · rfl
  · change j ∈ rest.map (·.slot) ↔ _
    rw [slot_bridgeOutGone]
    have hmem := h.mem_bridgeOuts j
    rw [hb, List.map_cons, List.mem_cons] at hmem
    by_cases hj : j = m.slot
    · simpa [hj] using hm
    · rw [if_neg hj]
      exact (or_iff_right hj).symm.trans hmem

theorem bridgeOutSent_sound (hs : SoundWithin 8 s) : goesOnSound (execBridgeOutSent s) := by
  refine goesOnSound_next ?_
  split
  · next m rest _ hb => exact ((hs.bridgeOutGone hb).buildBridgeOut m.slot true).arbitrate
  · exact hs

/-- The oldest notice leaves the queue as its slot's flag is cleared, whatever goes on the pipe (R179). -/
theorem SoundWithin.popNotice {n : Nat} (h : SoundWithin n s) {rest : List SlotId} (hn : s.uplink.notices = i :: rest)
    (p : Option Notice) :
    SoundWithin n
      (State.modSlot { s with uplink := { s.uplink with notices := rest, noticeOnPipe := p, turns := [] } } i
        fun x => { x with noticeWaiting := false }) := by
  have hnodup := h.notices_nodup
  rw [hn, List.nodup_cons] at hnodup
  obtain ⟨hi, hrest⟩ := hnodup
  refine ⟨h.room, hrest, fun j => ?_, h.bridgeOuts_nodup, fun j => ?_⟩
  · rw [State.slot_modSlot]
    have hmem := h.mem_notices j
    rw [hn, List.mem_cons] at hmem
    by_cases hj : j = i
    · simpa [hj] using hi
    · rw [if_neg hj]
      exact (or_iff_right hj).symm.trans hmem
  · rw [State.slot_modSlot]
    refine (h.mem_bridgeOuts j).trans ?_
    split
    · next hj => rw [hj]; rfl
    · rfl

theorem noticeBegun_sound (hs : SoundWithin 8 s) : goesOnSound (execNoticeBegun s) := by
  refine goesOnSound_next ?_
  split
  · next hn =>
    split
    · exact hs.popNotice hn _
    · exact hs
  · exact hs

/-! ### Inputs, timers and current supervision -/

theorem presenceDebounceExpiry_sound (hs : SoundWithin 8 s) (i : SlotId) :
    goesOnSound (execPresenceDebounceExpiry i s) := by
  have hsettled : SoundWithin 8 (s.modSlot i fun x => { x with present := x.contact, debounce := none }) := hs.modSlot i rfl
  refine goesOnSound_next ?_
  split
  · dsimp only; split
    · exact hsettled
    split
    · unfold State.takeAttach; dsimp only; split
      · exact (hsettled.raise i _).attachVacant i
      · exact hsettled.raise i _
    · unfold State.takeDetach; dsimp only; split
      · exact hsettled.raise i _
      · exact hsettled.raise i _
      · exact (hsettled.raise i _).stopSlot i _ _
  · exact hs

theorem SoundWithin.openDrawer {n : Nat} (h : SoundWithin n s) (i : SlotId) : SoundWithin n (s.openDrawer i) := by
  unfold State.openDrawer; split
  · exact h
  · exact h
  · exact h.enterInhibited i _

theorem SoundWithin.closeDrawer {n : Nat} (h : SoundWithin n s) (i : SlotId) : SoundWithin n (s.closeDrawer i) := by
  unfold State.closeDrawer; split
  · exact h.leaveInhibited i
  · exact h

theorem interlockSettleExpiry_sound (hs : SoundWithin 8 s) (bank : Bank) :
    goesOnSound (execInterlockSettleExpiry bank s) := by
  refine goesOnSound_next ?_
  split
  · refine (hs.setInterlock bank _).foldl (fun _ i h => ?_) _
    split
    · exact h.openDrawer i
    · exact h.closeDrawer i
  · exact hs

theorem settleTimerExpiry_sound (hs : SoundWithin 8 s) (i : SlotId) : goesOnSound (execSettleTimerExpiry i s) := by
  refine goesOnSound_next ?_
  split
  · exact hs.enterBooting i
  · exact hs

theorem SoundWithin.allowanceEnded {n : Nat} (h : SoundWithin n s) (i : SlotId) (kind : AllowanceKind) :
    SoundWithin n (s.allowanceEnded i kind) := by
  unfold State.allowanceEnded; split
  · split
    · exact (h.modSlot i (by rfl)).recoveryDecision i _ _
    · exact h
  · exact h

theorem recoveryOffTimerExpiry_sound (hs : SoundWithin 8 s) (i : SlotId) :
    goesOnSound (execRecoveryOffTimerExpiry i s) := by
  refine goesOnSound_next ?_
  split
  · exact hs.enterPowering i
  · exact hs

theorem keyPressExpiry_sound (hs : SoundWithin 8 s) (i : SlotId) : goesOnSound (execKeyPressExpiry i s) := by
  refine goesOnSound_next ?_
  split
  · exact hs.modSlot i rfl
  · exact hs

theorem blankingWindowExpiry_sound (hs : SoundWithin 8 s) (i : SlotId) : goesOnSound (execBlankingWindowExpiry i s) := by
  refine goesOnSound_next ?_
  split
  · exact hs.modSlot i rfl
  · exact hs

theorem currentSample_sound (hs : SoundWithin 8 s) (i : SlotId) (milliamps : Nat) :
    goesOnSound (execCurrentSample i milliamps s) := by
  refine goesOnSound_next ?_
  split
  · exact hs.modSlot i (waits_takeSample _ _ _)
  · exact hs

theorem SoundWithin.takeFaultRequest {n : Nat} (h : SoundWithin n s) (i : SlotId) (r : FaultRequest) :
    SoundWithin n (s.takeFaultRequest i r) := by
  unfold State.takeFaultRequest; dsimp only; split
  · exact h.enterFault i _ _
  split
  · exact h.modSlot i rfl
  · exact h

theorem faultRequest_sound (hs : SoundWithin 8 s) (i : SlotId) : goesOnSound (execFaultRequest i s) := by
  refine goesOnSound_next ?_
  split
  · exact hs
  · exact (hs.modSlot i (by rfl)).takeFaultRequest i _

/-! ### The slot link and the deadlines -/

theorem formatError_sound (hs : SoundWithin 8 s) (i : SlotId) (f : Frame) : goesOnSound (execFormatError i f s) := by
  refine goesOnSound_next ?_
  split
  · exact hs
  · exact hs.receive i f _ (fun _ h => h) fun _ h => h

theorem receiverStallExpiry_sound (hs : SoundWithin 8 s) (i : SlotId) : goesOnSound (execReceiverStallExpiry i s) := by
  refine goesOnSound_next ?_
  split
  · exact hs.crcError i
  · exact hs

theorem sequenceErrorFrame_sound (hs : SoundWithin 8 s) (i : SlotId) (seq : Byte) :
    goesOnSound (execSequenceErrorFrame i seq s) := by
  have hhunting : SoundWithin 8 (s.modSlot i Slot.hunt) := hs.modSlot i rfl
  refine goesOnSound_next ?_
  split
  · dsimp only; split
    · exact hhunting
    · exact hhunting.sequenceError i seq
  · exact hs

theorem rateExchangeWaitExpiry_sound (hs : SoundWithin 8 s) (i : SlotId) :
    goesOnSound (execRateExchangeWaitExpiry i s) := by
  refine goesOnSound_next ?_
  split
  · split
    · exact hs.becomeReady i
    · exact hs.enterFault i _ _
  · exact hs

theorem waits_startAbortWait (x : Slot) (now : Count) : waits (x.startAbortWait now) = waits x := by
  unfold Slot.startAbortWait; split <;> rfl

theorem waits_openStream (x : Slot) : waits x.openStream = waits x := by
  unfold Slot.openStream; split
  · exact waits_modStream _ _
  · rfl

theorem waits_chunkSent (x : Slot) : waits x.chunkSent = waits x := by
  unfold Slot.chunkSent; split
  · exact waits_modStream _ _
  · rfl

theorem damageStop_sound (hs : SoundWithin 8 s) (i : SlotId) : goesOnSound (execDamageStop i s) := by
  refine goesOnSound_next ?_
  split
  · exact hs
  · dsimp only; split
    · exact (hs.modSlot i (by rfl)).abortWith i _
    · exact hs.modSlot i rfl

theorem memberWindowExpiry_sound (hs : SoundWithin 8 s) (i : SlotId) : goesOnSound (execMemberWindowExpiry i s) := by
  refine goesOnSound_next ?_
  split
  · exact hs.abortWith i _
  · exact hs

theorem queueLimitExpiry_sound (hs : SoundWithin 8 s) (i : SlotId) : goesOnSound (execQueueLimitExpiry i s) := by
  refine goesOnSound_next ?_
  split
  · exact (hs.modSlot i (by rfl)).slotWork i
  · exact hs

theorem abortWaitExpiry_sound (hs : SoundWithin 8 s) (i : SlotId) : goesOnSound (execAbortWaitExpiry i s) := by
  refine goesOnSound_next ?_
  split
  · exact ((hs.releaseReference i).modSlot i (by rfl)).recoveryDecision i _ _
  · exact hs

/-! ### Every command -/

theorem exec_sound (hs : SoundWithin 8 s) (c : Instr) : goesOnSound (exec c s) := by
  cases c with
  | powerOnReset banks ceiling => exact goesOnSound_next (powerUp_soundWithin s banks ceiling)
  | hostPortConfigured => exact hostPortConfigured_sound hs
  | hostPortDetach => exact hostPortDetach_sound hs
  | malformedTransfer bytes => exact malformedTransfer_sound hs bytes
  | identify tag body => exact request_sound hs fun _ _ h => h.answer
  | restart tag body => exact restart_sound hs body
  | setProfile tag body => exact setProfile_sound hs body
  | powerOn tag body => exact powerOn_sound hs body
  | powerOff tag body => exact powerOff_sound hs body
  | cycle tag body => exact cycle_sound hs body
  | resetSlot tag body => exact resetSlot_sound hs body
  | clearFault tag body => exact clearFault_sound hs body
  | disable tag body => exact disable_sound hs body
  | enable tag body => exact enable_sound hs body
  | querySlots tag body => exact querySlots_sound hs body
  | defineGroup tag body => exact defineGroup_sound hs body
  | undefineGroup tag body => exact undefineGroup_sound hs body
  | setFixtureLoad tag body => exact setFixtureLoad_sound hs body
  | setFixtureClear tag body => exact setFixtureClear_sound hs body
  | setTranslation tag body => exact setTranslation_sound hs body
  | direct tag body => exact request_sound hs fun f _ h => h.operate tag _ f.op _
  | push tag body => exact request_sound hs fun f _ h => h.operate tag _ f.op _
  | cancel tag body => exact cancel_sound hs body
  | queryOperations tag body => exact request_sound hs fun _ _ h => h.answer
  | imageDefine tag body => exact imageDefine_sound hs body
  | imageWrite tag body => exact imageWrite_sound hs body
  | imageWriteAccessDone one two => exact imageWriteAccessDone_sound hs one two
  | imageCommit tag body => exact imageCommit_sound hs body
  | imageRelease tag body => exact imageRelease_sound hs body
  | imageQuery tag body => exact request_sound hs fun _ _ h => h.answer
  | measure tag body => exact measure_sound hs body
  | pressKey tag body => exact pressKey_sound hs body
  | readConsole tag body => exact readConsole_sound hs body
  | openBridge tag body => exact openBridge_sound hs body
  | bridgeData tag body => exact bridgeData_sound hs body
  | closeBridge tag body => exact closeBridge_sound hs body
  | readEvents tag body => exact readEvents_sound hs body
  | setNoticeMask tag body => exact setNoticeMask_sound hs body
  | receiptSent => exact receiptSent_sound hs
  | gatherReportSent => exact gatherReportSent_sound hs
  | bridgeOutSent => exact bridgeOutSent_sound hs
  | noticeBegun => exact noticeBegun_sound hs
  | presenceContactChange i seated lines => exact goesOnSound_next (hs.modSlot i (by rfl))
  | presenceDebounceExpiry i => exact presenceDebounceExpiry_sound hs i
  | interlockInputChange bank isOpen => exact goesOnSound_next (hs.setInterlock bank _)
  | interlockSettleExpiry bank => exact interlockSettleExpiry_sound hs bank
  | settleTimerExpiry i => exact settleTimerExpiry_sound hs i
  | bootAllowanceExpiry i => exact goesOnSound_next (hs.allowanceEnded i .boot)
  | resyncAllowanceExpiry i => exact goesOnSound_next (hs.allowanceEnded i .resync)
  | recoveryOffTimerExpiry i => exact recoveryOffTimerExpiry_sound hs i
  | hello i detector => exact goesOnSound_next (hs.receive i _ detector (fun _ h => h) fun _ h => h)
  | linkAck i => exact goesOnSound_next (hs.receive i _ _ (fun _ h => h) fun _ h => h.takeLinkAck i _)
  | rateExchangeWaitExpiry i => exact rateExchangeWaitExpiry_sound hs i
  | result i => exact goesOnSound_next (hs.receive i _ _ (fun _ h => h) fun _ h => h.takeResult i _ _)
  | text i => exact goesOnSound_next (hs.receive i _ _ (fun _ h => h.appendText i _) fun _ h => h.appendText i _)
  | streamCredit i => exact goesOnSound_next (hs.receive i _ _ (fun _ h => h) fun _ h => h.takeCredit i _)
  | formatError i f => exact formatError_sound hs i f
  | crcError i => exact goesOnSound_next (hs.crcError i)
  | receiverStallExpiry i => exact receiverStallExpiry_sound hs i
  | linkFrameSent i => exact goesOnSound_next (hs.frameSent i _ fun _ => rfl)
  | abortFrameSent i => exact goesOnSound_next (hs.frameSent i _ fun x => waits_startAbortWait x _)
  | streamOpenSent i => exact goesOnSound_next (hs.frameSent i _ waits_openStream)
  | streamDataSent i => exact goesOnSound_next (hs.frameSent i _ waits_chunkSent)
  | streamChunkRead i one two => exact streamChunkRead_sound hs i one two
  | damageStop i => exact damageStop_sound hs i
  | memberWindowExpiry i => exact memberWindowExpiry_sound hs i
  | queueLimitExpiry i => exact queueLimitExpiry_sound hs i
  | abortWaitExpiry i => exact abortWaitExpiry_sound hs i
  | keyPressExpiry i => exact keyPressExpiry_sound hs i
  | blankingWindowExpiry i => exact blankingWindowExpiry_sound hs i
  | currentSample i milliamps => exact currentSample_sound hs i milliamps
  | faultRequest i => exact faultRequest_sound hs i
  | bridgeIdleTimerExpiry i => exact bridgeIdleTimerExpiry_sound hs i
  | breakEnd i => exact breakEnd_sound hs i
  | rawByteReceived i byte => exact rawByteReceived_sound hs i byte
  | bridgeOutGatheringExpiry i => exact bridgeOutGatheringExpiry_sound hs i
  | bridgeByteSent i => exact bridgeByteSent_sound hs i
  | clearingJobEnd => exact clearingJobEnd_sound hs
  | verificationJobEnd one two => exact verificationJobEnd_sound hs one two
  | append i => exact append_sound hs i
  | withdraw i => exact withdraw_sound hs i
  | startReport i => exact startReport_sound hs i
  | resultReport i => exact resultReport_sound hs i
  | windowExpiryReport i => exact windowExpiryReport_sound hs i
  | queueLimitReport i => exact queueLimitReport_sound hs i
  | dropReport i => exact dropReport_sound hs i
  | streamDamageReport i => exact streamDamageReport_sound hs i
  | sequenceErrorFrame i seq => exact sequenceErrorFrame_sound hs i seq

/-- Settles O60: a step of the time base touches no queue and no flag, and every command keeps the queues and the flags
together. -/
theorem stepKeepsUplinkSound : Obligations.StepKeepsUplinkSound := by
  intro s t hs hstep
  rw [uplinkSound_iff] at hs ⊢
  unfold step at hstep
  split at hstep
  · cases hstep
    exact hs.tick
  · next c rest _ =>
    have hrest : SoundWithin 8 { s with pending := rest } := hs.of_same rfl rfl fun _ => rfl
    exact exec_sound hrest c t hstep

end Sys2Proof.Machine.UplinkQueues
end

section
/-! PROOF. A BRIDGE_OUT sent and the next one built, and the requests BRIDGE_DATA and CLOSE_BRIDGE (chapter 8). -/

namespace Sys2Proof.Machine.Bridging

open Tables UplinkQueues

variable {s u : State} {i : SlotId} {tag : Tag}

/-! ### The BRIDGE_OUT builder (8.4) -/

theorem buildBridgeOut_full {start : Bool} (hb : (u.slot i).state = .bridge) (hw : (u.slot i).messageWaiting = false)
    (hr : 256 ≤ (u.slot i).ring.length) : u.buildBridgeOut i start = u.queueBridgeOut i := by
  have hne : (u.slot i).ring ≠ [] := fun h => by simp [h] at hr
  simp [State.buildBridgeOut, hb, hw, hne, Config.bridgeOutBytes, hr]

theorem buildBridgeOut_short (hb : (u.slot i).state = .bridge) (hw : (u.slot i).messageWaiting = false)
    (hne : (u.slot i).ring ≠ []) (hr : ¬ 256 ≤ (u.slot i).ring.length) :
    u.buildBridgeOut i true = u.modSlot i fun x => x.setGathering (some ⟨u.now, 2⟩) := by
  simp [State.buildBridgeOut, hb, hw, hne, Config.bridgeOutBytes, hr, Config.gatheringMs]

theorem buildBridgeOut_nothing {start : Bool} (h : ¬ ((u.slot i).state = .bridge ∧ (u.slot i).ring ≠ [])) :
    u.buildBridgeOut i start = u := by
  have hguard : ((u.slot i).state = .bridge && !(u.slot i).messageWaiting && !(u.slot i).ring.isEmpty) = false := by
    rw [← Bool.not_eq_true]
    simp only [Bool.and_eq_true, decide_eq_true_eq, Bool.not_eq_true', List.isEmpty_eq_false_iff]
    exact fun ⟨⟨hb, _⟩, hne⟩ => h ⟨hb, hne⟩
  simp only [State.buildBridgeOut, hguard, Bool.false_eq_true, if_false]

/-- What the builder makes of a slot that has no message waiting: a message at once, the gathering timer, or nothing
(R168). -/
theorem buildBridgeOut_spec (hw : (u.slot i).messageWaiting = false) :
    let x := u.slot i
    let v := u.buildBridgeOut i true
    slotsBut (· = i) u v ∧ v.uplink.receipts = u.uplink.receipts ∧ v.uplink.gathers = u.uplink.gathers ∧
      v.uplink.notices = u.uplink.notices ∧
      if x.state = .bridge ∧ 256 ≤ x.ring.length then
        v.uplink.bridgeOuts = u.uplink.bridgeOuts ++ [⟨i, x.wrapped, x.ring.take 256⟩] ∧
          v.slot i =
            { x with
              ring := x.ring.drop 256, wrapped := false, messageWaiting := true
              bridge := x.bridge.map fun b => { b with gathering := none } }
      else if x.state = .bridge ∧ x.ring ≠ [] then
        v.uplink.bridgeOuts = u.uplink.bridgeOuts ∧
          v.slot i = { x with bridge := x.bridge.map fun b => { b with gathering := some ⟨u.now, 2⟩ } }
      else v.uplink.bridgeOuts = u.uplink.bridgeOuts ∧ v.slot i = x := by
  dsimp only
  split_ifs with hfull hshort
  · rw [buildBridgeOut_full hfull.1 hw hfull.2]
    obtain ⟨hr, hg, hn, hb⟩ := queueBridgeOut_classes u i
    refine ⟨fun j hj => ?_, hr, hg, hn, hb, ?_⟩
    · rw [slot_queueBridgeOut, if_neg hj]
    · rw [slot_queueBridgeOut, if_pos rfl]
  · rw [buildBridgeOut_short hshort.1 hw hshort.2 fun hr => hfull ⟨hshort.1, hr⟩]
    refine ⟨fun j hj => State.slot_modSlot_ne u _ hj, rfl, rfl, rfl, rfl, ?_⟩
    rw [State.slot_modSlot_same]
    rfl
  · rw [buildBridgeOut_nothing hshort]
    exact ⟨fun _ _ => rfl, rfl, rfl, rfl, rfl, rfl⟩

/-! ### BRIDGE_OUT_SENT (8.4) -/

theorem bridgeOutGone_keeps (s : State) (m : BridgeOut) (rest : List BridgeOut) :
    keepsBut [.uplink, .slots] s (bridgeOutGone s m rest) :=
  ((withUplink_keeps s _).mono (by decide)).step (modSlot_keeps _ _ _) (by decide)

theorem bridgeOutSent_taken {m : BridgeOut} {rest : List BridgeOut} (hs : s.uplink.sends .bridgeOut = true)
    (hb : s.uplink.bridgeOuts = m :: rest) :
    exec .bridgeOutSent s = .next ((bridgeOutGone s m rest).buildBridgeOut m.slot true).arbitrate := by
  change execBridgeOutSent s = _
  simp only [execBridgeOutSent, hs, hb]
  rfl

/-- Settles O11: the message leaves the uplink with its slot's field, the builder goes on, and the arbiter takes no message
out of its class. -/
theorem bridgeOutSentBuildsTheNext : Obligations.BridgeOutSentBuildsTheNext := by
  intro s m rest hs hb
  set u := bridgeOutGone s m rest with hu
  have hslot (j : SlotId) : u.slot j = if j = m.slot then { s.slot m.slot with messageWaiting := false } else s.slot j :=
    slot_bridgeOutGone s m rest j
  have hsame : u.slot m.slot = { s.slot m.slot with messageWaiting := false } := (hslot m.slot).trans (if_pos rfl)
  obtain ⟨hslots, hr, hg, hn, hbuilt⟩ := buildBridgeOut_spec (u := u) (i := m.slot) (by rw [hsame])
  obtain ⟨har, hag, hab, han, -⟩ := arbitrate_classes (u.buildBridgeOut m.slot true)
  refine ⟨_, bridgeOutSent_taken hs hb, fun j hj => ?_, ?_, har.trans hr, hag.trans hg, han.trans hn, ?_⟩
  · rw [slot_arbitrate, hslots j hj, hslot, if_neg hj]
  · exact ((bridgeOutGone_keeps s m rest).trans (buildBridgeOut_keeps u _ _)).step (arbitrate_keeps _) (by decide)
  · rw [hsame] at hbuilt
    rw [← hu, hab, slot_arbitrate]
    exact hbuilt

/-! ### Requests that name one slot (R2) -/

theorem slotNumber_unfitted {p : Straps} {b : Byte} (h : ∀ i : SlotId, i.val = b.toNat → p.fitted i = false) :
    p.slotNumber b = none := by
  unfold Straps.slotNumber
  split
  · next hlt => rw [h ⟨b.toNat, hlt⟩ rfl, if_neg Bool.false_ne_true]
  · rfl

theorem slotNumber_fitted {p : Straps} {b : Byte} (hi : i.val = b.toNat) (h : p.fitted i = true) :
    p.slotNumber b = some i := by
  obtain ⟨v, hv⟩ := i
  obtain rfl : v = b.toNat := hi
  rw [Straps.slotNumber, dif_pos hv, if_pos h]

theorem onSlot_unfitted {b kind : Byte} {run : SlotId → State}
    (h : ∀ i : SlotId, i.val = b.toNat → s.straps.fitted i = false) :
    s.onSlot tag kind b run = s.answer tag kind .badSlot := by
  simp only [State.onSlot, slotNumber_unfitted h]

theorem onSlot_fitted {b kind : Byte} {run : SlotId → State} (hi : i.val = b.toNat) (h : s.straps.fitted i = true) :
    s.onSlot tag kind b run = run i := by
  simp only [State.onSlot, slotNumber_fitted hi h]

/-! ### BRIDGE_DATA (8.3) -/

theorem output_of_bridge {x : Slot} {b : BridgeRecord} (h : x.bridge = some b) : x.output = b.output := by
  simp only [Slot.output, h]

/-- The part of BRIDGE_DATA that goes by the slot: a bridge, room in its output buffer, and the bytes join it (R166). -/
def bridgeDataOn (s : State) (tag : Tag) (data : List Byte) (i : SlotId) : State :=
  let held := (s.slot i).output
  if (s.slot i).state ≠ .bridge then s.answer tag codeBridgeData .wrongState
  else if Config.ringBytes - held.length < data.length then s.answer tag codeBridgeData .noRoom
  else
    (s.modSlot i fun x => (x.setOutput (held ++ data)).restartIdle s.now).answer tag codeBridgeData .accepted 0
      (.freeSpace (Config.ringBytes - (held.length + data.length)))

/-- BRIDGE_DATA with 1 to 1,024 bytes goes to its slot (R166). -/
theorem bridgeData_onSlot (h : s.intakeOpen = true) {slot : Byte} {data : List Byte} (hne : data ≠ [])
    (hlen : data.length ≤ 1024) :
    exec (.bridgeData tag (.shaped ⟨slot, data⟩)) s =
      .next (s.onSlot tag codeBridgeData slot (bridgeDataOn s tag data)) := by
  have hempty : data.isEmpty = false := List.isEmpty_eq_false_iff.mpr hne
  change execBridgeData tag (.shaped ⟨slot, data⟩) s = _
  simp only [execBridgeData, requestWith_shaped h, hempty, Nat.not_lt.mpr hlen, Bool.false_eq_true, if_false]
  rfl

theorem bridgeData_malformed (h : s.intakeOpen = true) (slot : Byte) :
    exec (.bridgeData tag (.shaped ⟨slot, []⟩)) s = .next (s.answer tag codeBridgeData .malformed) := by
  change execBridgeData tag (.shaped ⟨slot, []⟩) s = _
  simp only [execBridgeData, requestWith_shaped h, List.isEmpty_nil, if_true]

theorem bridgeData_tooLong (h : s.intakeOpen = true) (slot : Byte) {data : List Byte} (hlen : 1024 < data.length) :
    exec (.bridgeData tag (.shaped ⟨slot, data⟩)) s = .next (s.answer tag codeBridgeData .tooLong) := by
  have hempty : data.isEmpty = false := List.isEmpty_eq_false_iff.mpr fun hnil => by simp [hnil] at hlen
  change execBridgeData tag (.shaped ⟨slot, data⟩) s = _
  simp only [execBridgeData, requestWith_shaped h, hempty, hlen, Bool.false_eq_true, if_false, if_true]

section
variable {data : List Byte} {b : BridgeRecord}

theorem bridgeDataOn_wrongState (h : (s.slot i).state ≠ .bridge) :
    bridgeDataOn s tag data i = s.answer tag codeBridgeData .wrongState := if_pos h

theorem bridgeDataOn_noRoom (h : (s.slot i).state = .bridge) (hb : (s.slot i).bridge = some b)
    (hroom : 2048 - b.output.length < data.length) :
    bridgeDataOn s tag data i = s.answer tag codeBridgeData .noRoom := by
  rw [bridgeDataOn, if_neg (not_not_intro h), output_of_bridge hb]
  exact if_pos hroom

theorem bridgeDataOn_accepted (h : (s.slot i).state = .bridge) (hb : (s.slot i).bridge = some b)
    (hroom : data.length ≤ 2048 - b.output.length) :
    bridgeDataOn s tag data i =
      (s.modSlot i fun x => (x.setOutput (b.output ++ data)).restartIdle s.now).answer tag codeBridgeData .accepted 0
        (.freeSpace (2048 - (b.output.length + data.length))) := by
  rw [bridgeDataOn, if_neg (not_not_intro h), output_of_bridge hb]
  exact if_neg (Nat.not_lt.mpr hroom)

theorem setOutput_restartIdle {x : Slot} (hb : x.bridge = some b) (bytes : List Byte) (now : Count) :
    (x.setOutput bytes).restartIdle now =
      { x with bridge := some { b with output := bytes, idleTimer := b.idleClass.map fun n => ⟨now, n⟩ } } := by
  simp only [Slot.setOutput, Slot.restartIdle, hb, Option.map_some]

end

/-! ### CLOSE_BRIDGE (8.5) -/

/-- The part of CLOSE_BRIDGE that goes by the slot: the bytes left are counted as the bridge exits (R170, R171). -/
def closeBridgeOn (s : State) (tag : Tag) (i : SlotId) : State :=
  if (s.slot i).state ≠ .bridge then s.answer tag codeCloseBridge .wrongState
  else (s.leaveBridge i).answer tag codeCloseBridge .accepted 0 (.discarded (s.slot i).output.length)

theorem closeBridge_onSlot (h : s.intakeOpen = true) (slot : Byte) :
    exec (.closeBridge tag (.shaped slot)) s = .next (s.onSlot tag codeCloseBridge slot (closeBridgeOn s tag)) := by
  change execCloseBridge tag (.shaped slot) s = _
  simp only [execCloseBridge, requestWith_shaped h]
  rfl

theorem closeBridgeOn_accepted {b : BridgeRecord} (h : (s.slot i).state = .bridge) (hb : (s.slot i).bridge = some b) :
    closeBridgeOn s tag i =
      (s.leaveBridge i).answer tag codeCloseBridge .accepted 0 (.discarded b.output.length) := by
  rw [closeBridgeOn, if_neg (not_not_intro h), output_of_bridge hb]

/-- A change of one slot, and then its receipt. -/
theorem modSlot_then_answer (h : s.intakeOpen = true) (i : SlotId) (f : Slot → Slot) {kind : Byte} {c : ResultCode}
    {detail : Half} {reply : Reply} :
    let t := (s.modSlot i f).answer tag kind c detail reply
    receiptJoins s t ⟨tag, kind, c, detail, reply⟩ ∧ keepsBut [.uplink, .slots] s t ∧ slotsBut (· = i) s t ∧
      t.slot i = f (s.slot i) := by
  obtain ⟨hj, hk⟩ := change_then_answer h (modSlot_keeps s i f) (by decide) (by decide)
  exact ⟨hj, hk, fun j hji => (slot_answer _ _ _ _ _ _ j).trans (State.slot_modSlot_ne s f hji),
    (slot_answer _ _ _ _ _ _ i).trans (State.slot_modSlot_same s i f)⟩

/-- Settles O41: the refusals in their order, then what each request makes of a bridged slot. -/
theorem bridgeDataAndCloseBridge : Obligations.BridgeDataAndCloseBridge := by
  intro tag slot data s h send close
  refine ⟨fun hnil => ?_, fun hlong => ?_, fun hun => ⟨fun hne hlen => ?_, ?_⟩,
    fun i hi hf => ⟨fun hst => ⟨fun hne hlen => ?_, ?_⟩,
      fun b hst hb => ⟨fun hne hlen hroom => ?_, fun hne hlen hroom => ?_, ?_⟩⟩⟩
  · subst hnil
    exact ⟨_, bridgeData_malformed h slot, answer_onlyAnswers h⟩
  · exact ⟨_, bridgeData_tooLong h slot hlong, answer_onlyAnswers h⟩
  · exact ⟨_, (bridgeData_onSlot h hne hlen).trans (congrArg _ (onSlot_unfitted hun)), answer_onlyAnswers h⟩
  · exact ⟨_, (closeBridge_onSlot h slot).trans (congrArg _ (onSlot_unfitted hun)), answer_onlyAnswers h⟩
  · exact ⟨_, (bridgeData_onSlot h hne hlen).trans
      (congrArg _ ((onSlot_fitted hi hf).trans (bridgeDataOn_wrongState hst))), answer_onlyAnswers h⟩
  · exact ⟨_, (closeBridge_onSlot h slot).trans (congrArg _ ((onSlot_fitted hi hf).trans (if_pos hst))),
      answer_onlyAnswers h⟩
  · exact ⟨_, (bridgeData_onSlot h hne hlen).trans
      (congrArg _ ((onSlot_fitted hi hf).trans (bridgeDataOn_noRoom hst hb hroom))), answer_onlyAnswers h⟩
  · obtain ⟨hj, hk, hslots, hslot⟩ :=
      modSlot_then_answer h i fun x => (x.setOutput (b.output ++ data)).restartIdle s.now
    exact ⟨_, (bridgeData_onSlot h hne hlen).trans
      (congrArg _ ((onSlot_fitted hi hf).trans (bridgeDataOn_accepted hst hb hroom))), hj, hk, hslots,
      hslot.trans (setOutput_restartIdle hb _ _)⟩
  · exact ⟨_, (closeBridge_onSlot h slot).trans
      (congrArg _ ((onSlot_fitted hi hf).trans (closeBridgeOn_accepted hst hb))), modSlot_then_answer h i _⟩

end Sys2Proof.Machine.Bridging
end

section
/-! PROOF. A slot's pending set (chapter 9): the notice that carries it, READ_EVENTS that takes and clears it, and
SET_NOTICE_MASK, whose newly enabled kinds queue the notices that were held back. -/

namespace Sys2Proof.Machine.Notices

open Tables

variable {s u : State} {i : SlotId} {tag : Tag} {set : SlotSet}

/-! ### A notice begins (9.3) -/

theorem firstClass_eq_none {u : Uplink} (hr : u.receipts = []) (hg : u.gathers = []) (hb : u.bridgeOuts = []) :
    u.firstClass = none := by
  simp [Uplink.firstClass, hr, hg, hb]

/-- The notice a slot's pending set makes as it stands: none for an empty set (R179). -/
def noticeOf (s : State) (i : SlotId) : Option Notice :=
  if (s.slot i).pendingEvents = 0 then none else some ⟨i, (s.slot i).pendingEvents, (s.slot i).agentUpCause, s.now⟩

theorem noticeBegun_taken {rest : List SlotId} (hn : s.uplink.notices = i :: rest) (hc : s.port.configured = true)
    (hfree : s.uplink.sending = none) (hfirst : s.uplink.firstClass = none) :
    exec .noticeBegun s =
      .next (State.modSlot
        { s with uplink := { s.uplink with notices := rest, noticeOnPipe := noticeOf s i, turns := [] } } i
        fun x => { x with noticeWaiting := false }) := by
  change execNoticeBegun s = _
  simp only [execNoticeBegun, hn, hc, hfree, hfirst, Option.isNone_none, Bool.and_self, if_true]
  rfl

/-- Settles O12: the uplink takes the notice first, and its slot's flag is then cleared. -/
theorem noticeCarriesThePendingSet : Obligations.NoticeCarriesThePendingSet := by
  intro s i rest hn hc hfree hr hg hb
  set v : Uplink := { s.uplink with notices := rest, noticeOnPipe := noticeOf s i, turns := [] }
  have hk : keepsBut [.uplink, .slots] s { s with uplink := v } := (withUplink_keeps s v).mono (by decide)
  refine ⟨_, noticeBegun_taken hn hc hfree (firstClass_eq_none hr hg hb), hk.step (modSlot_keeps _ i _) (by decide),
    fun j hj => ?_, ?_, rfl⟩
  · exact State.slot_modSlot_ne { s with uplink := v } _ hj
  · exact State.slot_modSlot_same { s with uplink := v } i _

/-! ### READ_EVENTS (9.4) -/

theorem readEvents_fitted (h : s.intakeOpen = true) (hset : s.straps.namesUnfitted set = false) :
    exec (.readEvents tag (.shaped set)) s =
      .next (((slotsOf set).foldl State.clearEvents s).answer tag codeReadEvents .accepted 0
        (.events ((slotsOf set).map s.eventEntry))) := by
  change execReadEvents tag (.shaped set) s = _
  simp only [execReadEvents, requestWith_shaped h, hset, Bool.false_eq_true, if_false]

/-- READ_EVENTS clears the set's slots one after the other, and its receipt carries what they held before (R180). -/
theorem readEvents_spec (h : s.intakeOpen = true) (hset : s.straps.namesUnfitted set = false) :
    ∃ t, exec (.readEvents tag (.shaped set)) s = .next t ∧
      receiptJoins s t ⟨tag, 0x18, .accepted, 0, .events ((slotsOf set).map s.eventEntry)⟩ ∧
      keepsBut [.uplink, .slots] s t ∧
      ∀ i,
        t.slot i =
          if i ∈ slotsOf set then { s.slot i with pendingEvents := 0, agentUpCause := none } else s.slot i := by
  have hcleared : keepsBut [.slots] s ((slotsOf set).foldl State.clearEvents s) :=
    foldl_modSlot_keeps (fun _ x => { x with pendingEvents := 0, agentUpCause := none }) (slotsOf set) s
  obtain ⟨hj, hk⟩ := change_then_answer h hcleared (by decide) (by decide)
  refine ⟨_, readEvents_fitted h hset, hj, hk, fun i => ?_⟩
  rw [slot_answer]
  exact slot_foldl_modSlot (fun _ x => { x with pendingEvents := 0, agentUpCause := none }) _ (slotsOf_nodup set) s i

/-! ### SET_NOTICE_MASK (9.5) -/

/-- A slot whose notice waits where it holds a newly enabled kind pending, and as before where it holds none (R181). -/
def noticed (enabled : BitVec 8) (x : Slot) : Slot :=
  { x with noticeWaiting := x.noticeWaiting || x.pendingEvents &&& enabled != 0 }

/-- A slot receives a notice: its flag was clear and becomes set. -/
def receivesNotice (enabled : BitVec 8) (x : Slot) : Bool := !x.noticeWaiting && (noticed enabled x).noticeWaiting

section
variable (enabled : BitVec 8)

theorem noticeIfPending_eq (s : State) (i : SlotId) :
    s.noticeIfPending enabled i = if receivesNotice enabled (s.slot i) then s.queueNotice i else s := by
  have hcond : receivesNotice enabled (s.slot i) =
      ((s.slot i).pendingEvents &&& enabled != 0 && !(s.slot i).noticeWaiting) := by
    cases hw : (s.slot i).noticeWaiting <;> simp [receivesNotice, noticed, hw]
  rw [hcond, State.noticeIfPending]

theorem noticed_of_receivesNotice {x : Slot} (h : receivesNotice enabled x = true) :
    noticed enabled x = { x with noticeWaiting := true } := by
  obtain ⟨-, hset⟩ := Bool.and_eq_true_iff.mp h
  exact congrArg (fun b => { x with noticeWaiting := b }) hset

theorem noticed_of_not_receivesNotice {x : Slot} (h : receivesNotice enabled x = false) : noticed enabled x = x := by
  have hsame : (noticed enabled x).noticeWaiting = x.noticeWaiting := by
    cases hw : x.noticeWaiting with
    | true => simp [noticed, hw]
    | false => simpa [receivesNotice, hw] using h
  exact congrArg (fun b => { x with noticeWaiting := b }) hsame

theorem noticeIfPending_keeps (s : State) (i : SlotId) :
    keepsBut [.uplink, .slots] s (s.noticeIfPending enabled i) := by
  rw [noticeIfPending_eq]
  split
  · exact queueNotice_keeps s i
  · exact .refl _ s

theorem slot_noticeIfPending (s : State) (i j : SlotId) :
    (s.noticeIfPending enabled i).slot j = if j = i then noticed enabled (s.slot i) else s.slot j := by
  rw [noticeIfPending_eq]
  split
  · next h => rw [slot_queueNotice, noticed_of_receivesNotice enabled h]
  · next h =>
    rw [noticed_of_not_receivesNotice enabled (eq_false_of_ne_true h)]
    split
    · next hj => rw [hj]
    · rfl

theorem uplink_noticeIfPending (s : State) (i : SlotId) :
    (s.noticeIfPending enabled i).uplink =
      { s.uplink with
        notices := s.uplink.notices ++ [i].filter fun k => receivesNotice enabled (s.slot k) } := by
  rw [noticeIfPending_eq]
  cases h : receivesNotice enabled (s.slot i) with
  | true => simp only [List.filter_cons, List.filter_nil, h, if_true]; rfl
  | false => simp only [List.filter_cons, List.filter_nil, h, Bool.false_eq_true, if_false, List.append_nil]

/-- Each slot of a list of different slots receives its notice, if any, by its own record. -/
theorem slot_noticesIfPending {l : List SlotId} (hl : l.Nodup) (s : State) (j : SlotId) :
    (l.foldl (fun t i => t.noticeIfPending enabled i) s).slot j =
      if j ∈ l then noticed enabled (s.slot j) else s.slot j := by
  induction l generalizing s with
  | nil => rfl
  | cons i l ih =>
    obtain ⟨hi, hl⟩ := List.nodup_cons.mp hl
    rw [List.foldl_cons, ih hl, slot_noticeIfPending]
    by_cases hj : j = i
    · subst hj
      simp [hi]
    · simp [hj]

/-- The notices queued follow those that waited, in the list's order; the rest of the uplink is as before. -/
theorem uplink_noticesIfPending {l : List SlotId} (hl : l.Nodup) (s : State) :
    (l.foldl (fun t i => t.noticeIfPending enabled i) s).uplink =
      { s.uplink with
        notices := s.uplink.notices ++ l.filter fun i => receivesNotice enabled (s.slot i) } := by
  induction l generalizing s with
  | nil => simp
  | cons i l ih =>
    obtain ⟨hi, hl⟩ := List.nodup_cons.mp hl
    have htail : (l.filter fun k => receivesNotice enabled ((s.noticeIfPending enabled i).slot k)) =
        l.filter fun k => receivesNotice enabled (s.slot k) :=
      List.filter_congr fun k hk => by
        have hne : k ≠ i := fun h => hi (h ▸ hk)
        rw [slot_noticeIfPending, if_neg hne]
    rw [List.foldl_cons, ih hl, htail, uplink_noticeIfPending, List.append_assoc, ← List.filter_append]
    rfl

/-- The notices of different slots queued behind a receipt join the uplink beside it. -/
theorem noticesIfPending_answersWithNotices {l : List SlotId} (hl : l.Nodup) {r : Receipt} (hj : receiptJoins s u r)
    (hslots : ∀ i, u.slot i = s.slot i) :
    answersWithNotices s (l.foldl (fun t i => t.noticeIfPending enabled i) u) r l := by
  obtain ⟨hreceipt, hgathers, hbridge, hnotices⟩ := hj
  have huplink := uplink_noticesIfPending enabled hl u
  have hfilter : (l.filter fun i => receivesNotice enabled (u.slot i)) =
      l.filter fun i => !(s.slot i).noticeWaiting &&
        ((l.foldl (fun t i => t.noticeIfPending enabled i) u).slot i).noticeWaiting :=
    List.filter_congr fun i hi => by rw [slot_noticesIfPending enabled hl, if_pos hi, hslots]; rfl
  refine ⟨?_, ?_, ?_, ?_⟩
  · simpa only [receiptQueued, huplink] using hreceipt
  · rw [huplink]; exact hgathers
  · rw [huplink]; exact hbridge
  · rw [noticesFollow, huplink, hfilter, hnotices]

end

theorem withNoticeMask_keeps (s : State) (m : BitVec 8) : keepsBut [.mask] s { s with noticeMask := m } := by
  intro p hp
  cases p with
  | mask => exact absurd (List.mem_singleton_self _) hp
  | store | jobs | interlocks => exact ⟨rfl, rfl⟩
  | arbiter => exact ⟨rfl, rfl, rfl⟩
  | _ => rfl

theorem setNoticeMask_malformed (h : s.intakeOpen = true) {m : Half} (hm : 256 ≤ m.toNat) :
    exec (.setNoticeMask tag (.shaped m)) s = .next (s.answer tag codeSetNoticeMask .malformed) := by
  change execSetNoticeMask tag (.shaped m) s = _
  simp only [execSetNoticeMask, requestWith_shaped h, hm, if_true]

/-- The state with the new mask, and with the receipt that carries the old one. -/
def maskReplaced (s : State) (tag : Tag) (new : BitVec 8) : State :=
  State.answer { s with noticeMask := new } tag codeSetNoticeMask .accepted 0 (.mask s.noticeMask)

theorem setNoticeMask_accepted (h : s.intakeOpen = true) {m : Half} (hm : m.toNat < 256) :
    exec (.setNoticeMask tag (.shaped m)) s =
      .next ((slotsOf s.straps.fittedSet).foldl
        (fun t i => t.noticeIfPending (m.setWidth 8 &&& ~~~s.noticeMask) i) (maskReplaced s tag (m.setWidth 8))) := by
  change execSetNoticeMask tag (.shaped m) s = _
  simp only [execSetNoticeMask, requestWith_shaped h, Nat.not_le.mpr hm, if_false]
  rfl

theorem slot_maskReplaced (s : State) (tag : Tag) (new : BitVec 8) (i : SlotId) :
    (maskReplaced s tag new).slot i = s.slot i :=
  slot_answer { s with noticeMask := new } _ _ _ _ _ i

/-- The fitted slots receive a notice where they hold a newly enabled kind; the others keep their records (R181). -/
theorem slot_fittedNoticed (enabled : BitVec 8) (s : State) (x : Slot) (i : SlotId) :
    (if i ∈ slotsOf s.straps.fittedSet then noticed enabled x else x) =
      { x with noticeWaiting := x.noticeWaiting || (s.straps.fitted i && x.pendingEvents &&& enabled != 0) } := by
  have hmem : i ∈ slotsOf s.straps.fittedSet ↔ s.straps.fitted i = true := mem_slotsOf _ i
  cases hf : s.straps.fitted i with
  | true => rw [if_pos (hmem.mpr hf), Bool.true_and, noticed]
  | false => rw [if_neg (by simp only [hmem, hf, Bool.false_eq_true, not_false_eq_true]), Bool.false_and, Bool.or_false]

/-- SET_NOTICE_MASK with no bit above bit 7: the receipt first, and then the notices of the fitted slots (R181). -/
theorem setNoticeMask_spec (h : s.intakeOpen = true) {m : Half} (hm : m.toNat < 256) :
    ∃ t, exec (.setNoticeMask tag (.shaped m)) s = .next t ∧
      answersWithNotices s t ⟨tag, 0x19, .accepted, 0, .mask s.noticeMask⟩ (slotsOf s.straps.fittedSet) ∧
      keepsBut [.uplink, .mask, .slots] s t ∧ t.noticeMask = m.setWidth 8 ∧
      ∀ i,
        t.slot i =
          { s.slot i with
            noticeWaiting :=
              (s.slot i).noticeWaiting ||
                (s.straps.fitted i && (s.slot i).pendingEvents &&& (m.setWidth 8 &&& ~~~s.noticeMask) != 0) } := by
  set enabled : BitVec 8 := m.setWidth 8 &&& ~~~s.noticeMask
  have hl : (slotsOf s.straps.fittedSet).Nodup := slotsOf_nodup _
  obtain ⟨hj, hanswer⟩ := change_then_answer (tag := tag) (kind := codeSetNoticeMask) (c := .accepted) (detail := 0)
    (reply := .mask s.noticeMask) h (withNoticeMask_keeps s (m.setWidth 8)) (by decide) (by decide)
  have hmask : (maskReplaced s tag (m.setWidth 8)).noticeMask = m.setWidth 8 :=
    answer_keeps { s with noticeMask := m.setWidth 8 } _ _ _ _ _ .mask (by decide)
  have hnotices := keepsBut.foldl _ (noticeIfPending_keeps enabled) (slotsOf s.straps.fittedSet)
    (maskReplaced s tag (m.setWidth 8))
  refine ⟨_, setNoticeMask_accepted h hm,
    noticesIfPending_answersWithNotices enabled hl hj (slot_maskReplaced s tag _),
    (hanswer.mono (by decide)).step hnotices (by decide), (hnotices .mask (by decide)).trans hmask, fun i => ?_⟩
  rw [slot_noticesIfPending enabled hl, slot_maskReplaced, slot_fittedNoticed]

/-- Settles O22: the two requests, each with its receipt beside what it makes of the slots. -/
theorem eventsAreReadAndMasked : Obligations.EventsAreReadAndMasked := by
  refine ⟨fun tag set s h hset => ?_, fun tag m s h => ⟨fun hm => ?_, fun hm => ?_⟩⟩
  · exact readEvents_spec h hset
  · exact ⟨_, setNoticeMask_malformed h hm, answer_onlyAnswers h⟩
  · exact setNoticeMask_spec h hm

end Sys2Proof.Machine.Notices
end

section
/-! PROOF. The control port's intake (10.1) and IDENTIFY: a request held back while intake is closed, the transfers and the
bodies that are refused before a request's own rule is looked at, and the part's reply (10.6.3). -/

namespace Sys2Proof.Machine.ControlPort

open Tables

variable {s : State} {tag : Tag} {kind : Byte}

/-! ### Intake (R184, R186) -/

theorem request_open (h : s.intakeOpen = true) (run : State → State) : s.request run = run s := if_pos h

theorem request_closed (h : s.intakeOpen = false) (run : State → State) : s.request run = s := by
  simp only [State.request, h, Bool.false_eq_true, if_false]

theorem intakeOpen_eq_false_iff (s : State) :
    s.intakeOpen = false ↔
      s.port.configured = false ∨ s.port.inProgress ≠ none ∨ s.port.intakeHold = true ∨ 8 ≤ s.uplink.receipts.length := by
  simp only [State.intakeOpen, Bool.and_eq_false_iff, Bool.not_eq_false', decide_eq_false_iff_not, Nat.not_lt,
    Option.isNone_eq_false_iff, Option.isSome_iff_ne_none, or_assoc]
  exact Iff.rfl

theorem slotControl_request (s : State) (tag : Tag) (body : Body SlotSet) (allows : Slot → Bool)
    (act : State → SlotId → State) : ∃ run, s.slotControl tag body allows act = s.request run := by
  unfold State.slotControl
  exact ⟨_, rfl⟩

/-- Every command that the control port takes from the bulk OUT pipe is offered to intake before anything else (R186). -/
theorem exec_request {c : Instr} (h : isRequest c = true) (s : State) : ∃ run, exec c s = .next (s.request run) := by
  cases c with
  | malformedTransfer _ | identify _ _ | restart _ _ | setProfile _ _ | querySlots _ _ | defineGroup _ _
  | undefineGroup _ _ | setFixtureLoad _ _ | setFixtureClear _ _ | setTranslation _ _ | direct _ _ | push _ _
  | cancel _ _ | queryOperations _ _ | imageDefine _ _ | imageWrite _ _ | imageCommit _ _ | imageRelease _ _
  | imageQuery _ _ | measure _ _ | pressKey _ _ | readConsole _ _ | openBridge _ _ | bridgeData _ _ | closeBridge _ _
  | readEvents _ _ | setNoticeMask _ _ => exact ⟨_, rfl⟩
  | powerOn tag body | powerOff tag body | cycle tag body | resetSlot tag body | clearFault tag body | disable tag body
  | enable tag body => exact (slotControl_request s tag body _ _).imp fun _ => congrArg _
  | _ => cases h

/-- Settles O6: each of the four conditions closes intake. -/
theorem requestsWaitForIntake : Obligations.RequestsWaitForIntake := by
  intro c s hc hclosed
  obtain ⟨run, hrun⟩ := exec_request hc s
  rw [hrun, request_closed ((intakeOpen_eq_false_iff s).mpr hclosed)]

/-! ### A body of the wrong shape (R196) -/

/-- The receipt is the same whatever the request: no command looks at a body of the wrong shape. -/
theorem exec_misshapen {c : Instr} (h : misshapenBody c = some (tag, kind)) (s : State) :
    exec c s = .next (s.request fun s => s.answer tag kind .malformed) := by
  cases c with
  | identify _ body | restart _ body | setProfile _ body | powerOn _ body | powerOff _ body | cycle _ body
  | resetSlot _ body | clearFault _ body | disable _ body | enable _ body | querySlots _ body | defineGroup _ body
  | undefineGroup _ body | setFixtureLoad _ body | setFixtureClear _ body | setTranslation _ body | direct _ body
  | push _ body | cancel _ body | queryOperations _ body | imageDefine _ body | imageWrite _ body | imageCommit _ body
  | imageRelease _ body | imageQuery _ body | measure _ body | pressKey _ body | readConsole _ body | openBridge _ body
  | bridgeData _ body | closeBridge _ body | readEvents _ body | setNoticeMask _ body =>
    cases body with
    | misshapen _ => cases h; rfl
    | shaped _ => cases h
  | _ => cases h

/-! ### The five checks of a transfer (R185) -/

section

variable {transfer : List Byte}

theorem transferFailure_short (h : transfer.length < 6) : transferFailure transfer = some (0, 0, false) := if_pos h

theorem transferFailure_long (h6 : ¬ transfer.length < 6) (h : 8192 < transfer.length) :
    transferFailure transfer = some (halfAt transfer 2, byteAt transfer 0, false) :=
  (if_neg h6).trans (if_pos h)

theorem transferFailure_bodyLength (h6 : ¬ transfer.length < 6) (hmax : ¬ 8192 < transfer.length)
    (h : fieldAt transfer 4 2 ≠ transfer.length - 6) :
    transferFailure transfer = some (halfAt transfer 2, byteAt transfer 0, false) :=
  (if_neg h6).trans ((if_neg hmax).trans (if_pos h))

/-- A transfer whose length is in order fails at its kind, or else at its flags byte. -/
theorem transferFailure_header (h6 : ¬ transfer.length < 6) (hmax : ¬ 8192 < transfer.length)
    (hbody : ¬ fieldAt transfer 4 2 ≠ transfer.length - 6) :
    transferFailure transfer =
      if (byteAt transfer 0).toNat < 1 ∨ 25 < (byteAt transfer 0).toNat then
        some (halfAt transfer 2, byteAt transfer 0, true)
      else if byteAt transfer 1 ≠ 0 then some (halfAt transfer 2, byteAt transfer 0, false) else none := by
  simp only [transferFailure, Config.messageLimit, if_neg h6, if_neg hmax, if_neg hbody, Bool.or_eq_true,
    decide_eq_true_eq]

/-- The check that fails gives the receipt, with the tag and the kind as far as the transfer reaches (R185). -/
theorem malformedTransfer_answers {unknown : Bool} (h : s.intakeOpen = true)
    (hf : transferFailure transfer = some (tag, kind, unknown)) :
    ∃ t, exec (.malformedTransfer transfer) s = .next t ∧
      onlyAnswers s t ⟨tag, kind, if unknown then .unknownKind else .malformed, 0, .none⟩ := by
  refine ⟨s.answer tag kind (if unknown then .unknownKind else .malformed), ?_, answer_onlyAnswers h⟩
  change execMalformedTransfer transfer s = _
  simp only [execMalformedTransfer, request_open h, hf]

end

/-- Settles O7: a misshapen body by its one receipt, and a transfer by the first of the five checks it fails. -/
theorem malformedRequestsGetTheirReceipt : Obligations.MalformedRequestsGetTheirReceipt := by
  refine ⟨fun c s tag kind h hc => ?_, fun transfer s h hfails => ?_⟩
  · exact ⟨_, (exec_misshapen hc s).trans (congrArg _ (request_open h _)), answer_onlyAnswers h⟩
  · split_ifs with h6 hmax hbody hkind
    · exact malformedTransfer_answers h (transferFailure_short h6)
    · exact malformedTransfer_answers h (transferFailure_long h6 hmax)
    · exact malformedTransfer_answers h (transferFailure_bodyLength h6 hmax hbody)
    · exact malformedTransfer_answers h ((transferFailure_header h6 hmax hbody).trans (if_pos hkind))
    · have hflags : byteAt transfer 1 ≠ 0 := by tauto
      exact malformedTransfer_answers h
        ((transferFailure_header h6 hmax hbody).trans ((if_neg hkind).trans (if_pos hflags)))

/-! ### IDENTIFY (R192) -/

/-- The 24 bytes of IDENTIFY's reply (10.6.3): only the straps' three bytes and the count are not the part's own figures. -/
theorem identity_layout (d : Identity) :
    d.layout =
      [0x7E, 0x1A, 0x00, 0x24, 3, if d.banksTwo then 2 else 1, if d.ceilingFour then 4 else 3,
        if d.banksTwo then 24 else 12, 16, 0x00, 0x00, 0x01, 0x00, 0x00, 0x00, 0x80, 0x00, 8, 32, 4, 0x00, 0x20] ++
        toLittleEndian 4 d.now.toNat := by
  obtain ⟨banksTwo, ceilingFour, now⟩ := d
  cases banksTwo <;> cases ceilingFour <;> rfl

/-- Settles O8: the request passes intake and only answers, with the identity as its reply. -/
theorem identifyReportsThePart : Obligations.IdentifyReportsThePart := by
  intro tag s h
  refine ⟨_, .identity ⟨s.straps.banksTwo, s.straps.ceilingFour, s.now⟩, ?_, answer_onlyAnswers h, identity_layout _⟩
  change execIdentify tag (.shaped ()) s = _
  simp only [execIdentify, requestWith_shaped h, codeIdentify]

end Sys2Proof.Machine.ControlPort
end

section
/-! PROOF. One step of the machine with a command waiting (log 1). -/

namespace Sys2Proof.Machine.Stepping

/-- Settles O1: the queue's shape picks the second branch of `step`, where its front command runs on the rest. -/
theorem stepRunsFrontCommand : Obligations.StepRunsFrontCommand := by
  intro c rest s hpending
  rw [step, hpending]

end Sys2Proof.Machine.Stepping
end

section
/-! PROOF. What the actions on one slot after another make of the control port, the uplink, the image records and the slots:
the notices of the slots acted on, and at most one receipt, that of an OPEN_BRIDGE refused on the way (log 18, log 30). -/

namespace Sys2Proof.Machine.SlotActs

open Tables FanOut PowerBlock

variable {s t u : State} {i j : SlotId} {l : List SlotId} {r : Option Receipt}

/-! ### What actions leave and add -/

/-- What actions on the slots of a list make of the port and the uplink: a receipt `r` answers the request in progress, and
the notices of the slots whose notice-waiting flag they set join in the list's order (R178, R186). -/
structure Acts (s t : State) (l : List SlotId) (r : Option Receipt) : Prop where
  keeps : keepsBut [.port, .uplink, .images, .slots] s t
  slots : slotsBut (· ∈ l) s t
  port : t.port = if r.isSome then { s.port with inProgress := none } else s.port
  silent : r = none → t.uplink = { s.uplink with notices := t.uplink.notices }
  answers : ∀ q, r = some q → s.port.configured = true →
    receiptQueued s t q ∧ t.uplink.gathers = s.uplink.gathers ∧ t.uplink.bridgeOuts = s.uplink.bridgeOuts
  notices : noticesFollow s t l
  flags : ∀ j, (s.slot j).noticeWaiting = true → (t.slot j).noticeWaiting = true

/-- The receipt of the OPEN_BRIDGE that waits behind the slot's rate exchange, when it is refused (R42, R162; log 18). -/
def refusal (s : State) (i : SlotId) : Option Receipt :=
  match s.port.inProgress with
  | some (.openBridge tag j _) => if j = i then some ⟨tag, 0x15, .wrongState, 0, .none⟩ else none
  | _ => none

theorem refusal_of_not_deferred (h : s.deferredOn i = false) : refusal s i = none := by
  unfold State.deferredOn at h
  unfold refusal
  split
  · next tag j c hp =>
    rw [hp] at h
    rw [if_neg (by simpa using h)]
  · rfl

theorem refusal_of_openBridge {tag : Tag} {c : Option Nat} (h : s.port.inProgress = some (.openBridge tag i c)) :
    refusal s i = some ⟨tag, 0x15, .wrongState, 0, .none⟩ := by
  simp [refusal, h]

theorem refusal_congr (h : t.port = s.port) (i : SlotId) : refusal t i = refusal s i := by
  simp only [refusal, h]

theorem refusal_of_idle (h : s.port.inProgress = none) (i : SlotId) : refusal s i = none := by
  simp [refusal, h]

/-! ### Notices of actions that follow each other -/

theorem Acts.refl (s : State) (l : List SlotId) : Acts s s l none where
  keeps := .refl _ s
  slots _ _ := rfl
  port := rfl
  silent _ := rfl
  answers := by simp
  notices := by simp [noticesFollow]
  flags _ h := h

/-- The receipt that joins between actions that send none. -/
theorem Acts.uplink_trans {r1 r2 : Option Receipt} {l1 l2 : List SlotId} (h1 : Acts s t l1 r1) (h2 : Acts t u l2 r2)
    (hr : r1 = none ∨ r2 = none) :
    (u.port = if (r1.or r2).isSome then { s.port with inProgress := none } else s.port) ∧
      (r1.or r2 = none → u.uplink = { s.uplink with notices := u.uplink.notices }) ∧
      ∀ q, r1.or r2 = some q → s.port.configured = true →
        receiptQueued s u q ∧ u.uplink.gathers = s.uplink.gathers ∧ u.uplink.bridgeOuts = s.uplink.bridgeOuts := by
  rcases hr with rfl | rfl
  · have hu := h1.silent rfl
    have hp : t.port = s.port := h1.port
    refine ⟨hp ▸ h2.port, fun hn => ?_, fun q hq hc => ?_⟩
    · have hn2 := h2.silent (by simpa using hn)
      rw [hu] at hn2
      simpa using hn2
    · have ha := h2.answers q (by simpa using hq) (by rw [hp]; exact hc)
      rw [receiptQueued, hu] at ha
      exact ha
  · cases r1 with
    | none =>
      refine ⟨by simpa [h1.port] using h2.port, fun _ => ?_, by simp⟩
      have hn2 := h2.silent rfl
      rw [h1.silent rfl] at hn2
      simpa using hn2
    | some q1 =>
      refine ⟨by simpa [h1.port] using h2.port, by simp, fun q hq hc => ?_⟩
      obtain rfl : q1 = q := by simpa using hq
      obtain ⟨hrec, hg, hb⟩ := h1.answers q1 rfl hc
      rw [receiptQueued, h2.silent rfl]
      exact ⟨hrec, hg, hb⟩

/-- Two actions on the same slot. -/
theorem Acts.trans {r1 r2 : Option Receipt} (h1 : Acts s t [i] r1) (h2 : Acts t u [i] r2) (hr : r1 = none ∨ r2 = none) :
    Acts s u [i] (r1.or r2) := by
  obtain ⟨hport, hsilent, hanswers⟩ := h1.uplink_trans h2 hr
  refine ⟨h1.keeps.trans h2.keeps, fun j hj => (h2.slots j hj).trans (h1.slots j hj), hport, hsilent, hanswers, ?_,
    fun j hj => h2.flags j (h1.flags j hj)⟩
  have hn1 := h1.notices
  have hn2 := h2.notices
  have hf1 := h1.flags i
  have hf2 := h2.flags i
  unfold noticesFollow at *
  rw [hn2, hn1]
  cases hs : (s.slot i).noticeWaiting <;> cases ht : (t.slot i).noticeWaiting <;>
    cases hu : (u.slot i).noticeWaiting <;> simp_all

theorem Acts.before (h1 : Acts s t [i] none) (h2 : Acts t u [i] r) : Acts s u [i] r := by
  simpa using h1.trans h2 (.inl rfl)

theorem Acts.after (h1 : Acts s t [i] r) (h2 : Acts t u [i] none) : Acts s u [i] r := by
  simpa using h1.trans h2 (.inr rfl)

/-- Actions on some slots, and then on others. -/
theorem Acts.append {r1 r2 : Option Receipt} {l1 l2 : List SlotId} (h1 : Acts s t l1 r1) (h2 : Acts t u l2 r2)
    (hr : r1 = none ∨ r2 = none) (hd : ∀ j ∈ l1, j ∉ l2) : Acts s u (l1 ++ l2) (r1.or r2) := by
  obtain ⟨hport, hsilent, hanswers⟩ := h1.uplink_trans h2 hr
  refine ⟨h1.keeps.trans h2.keeps, fun j hj => ?_, hport, hsilent, hanswers, ?_, fun j hj => h2.flags j (h1.flags j hj)⟩
  · simp only [List.mem_append, not_or] at hj
    exact (h2.slots j hj.2).trans (h1.slots j hj.1)
  · have h1' : l1.filter (fun i => !(s.slot i).noticeWaiting && (u.slot i).noticeWaiting) =
        l1.filter fun i => !(s.slot i).noticeWaiting && (t.slot i).noticeWaiting :=
      List.filter_congr fun j hj => by rw [h2.slots j (hd j hj)]
    have h2' : l2.filter (fun i => !(s.slot i).noticeWaiting && (u.slot i).noticeWaiting) =
        l2.filter fun i => !(t.slot i).noticeWaiting && (u.slot i).noticeWaiting :=
      List.filter_congr fun j hj => by rw [h1.slots j fun hj1 => hd j hj1 hj]
    have hn1 : t.uplink.notices = _ := h1.notices
    have hn2 : u.uplink.notices = _ := h2.notices
    rw [noticesFollow, hn2, hn1, List.filter_append, h1', h2', List.append_assoc]

/-- What the uplink of one slot's actions is, as `onlySlot` and `refusesDeferred` say it. -/
theorem Acts.onlyNotices (h : Acts s t l none) : onlyNotices s t l := ⟨h.notices, h.silent rfl⟩

theorem Acts.slotsBut_one (h : Acts s t [i] r) : slotsBut (· = i) s t := fun j hj => h.slots j (by simpa using hj)

theorem Acts.onlySlot (h : Acts s t [i] (refusal s i)) : onlySlot s t i := by
  refine ⟨h.keeps, h.slotsBut_one, fun hd => ?_⟩
  have hport := h.port
  rw [refusal_of_not_deferred hd] at h hport
  exact ⟨hport, h.onlyNotices⟩

theorem Acts.deferredRefused {q : Receipt} {tag : Tag} (h : Acts s t l (some q)) (hq : q = ⟨tag, 0x15, .wrongState, 0, .none⟩) :
    deferredRefused s t tag l := by
  refine ⟨h.port, fun hc => ?_⟩
  obtain ⟨hrec, hg, hb⟩ := h.answers q rfl hc
  exact ⟨hq ▸ hrec, hg, hb, h.notices⟩

theorem Acts.refusesDeferred (h : Acts s t [i] (refusal s i)) : refusesDeferred s t i := by
  intro tag c hp
  rw [refusal_of_openBridge hp] at h
  exact h.deferredRefused rfl

/-! ### The actions -/

theorem Acts.modSlot (s : State) (i : SlotId) {f : Slot → Slot}
    (hf : (f (s.slot i)).noticeWaiting = (s.slot i).noticeWaiting) : Acts s (s.modSlot i f) [i] none where
  keeps := (modSlot_keeps s i f).mono (by decide)
  slots j hj := State.slot_modSlot_ne s f (by simpa using hj)
  port := rfl
  silent _ := rfl
  answers := by simp
  notices := by simp [noticesFollow, hf]
  flags j hj := by
    rw [State.slot_modSlot]
    split
    · next h => rw [hf, ← h]; exact hj
    · exact hj

theorem Acts.raise (s : State) (i : SlotId) (k : EventKind) : Acts s (s.raise i k) [i] none := by
  obtain ⟨hn, hu⟩ := raise_onlyNotices s i k
  refine ⟨(raise_keeps s i k).mono (by decide), fun j hj => slot_raise_ne (by simpa using hj) k,
    raise_keeps s i k .port (by decide), fun _ => hu, by simp, hn, fun j hj => ?_⟩
  rw [slot_raise]
  split
  · next h => subst h; simp [Slot.raised, hj]
  · exact hj

theorem noticeWaiting_released (x : Slot) : x.released.noticeWaiting = x.noticeWaiting := by
  obtain ⟨f, hx, -, -⟩ := x.released_with
  rw [hx]

theorem Acts.releaseReference (s : State) (i : SlotId) : Acts s (s.releaseReference i) [i] none := by
  have hk := releaseReference_keeps s i
  have hu : (s.releaseReference i).uplink = s.uplink := hk .uplink (by decide)
  have hw (j : SlotId) : ((s.releaseReference i).slot j).noticeWaiting = (s.slot j).noticeWaiting := by
    rw [slot_releaseReference]
    split
    · next h => rw [noticeWaiting_released, h]
    · rfl
  exact {
    keeps := hk.mono (by decide)
    slots := fun j hj => by rw [slot_releaseReference, if_neg (by simpa using hj)]
    port := hk .port (by decide)
    silent := fun _ => by rw [hu]
    answers := by simp
    notices := by simp [noticesFollow, hu, hw]
    flags := fun j hj => by rw [hw]; exact hj }

theorem Acts.dropInFlight (s : State) (i : SlotId) (c : DropCause) : Acts s (s.dropInFlight i c) [i] none :=
  (Acts.releaseReference s i).before (Acts.modSlot _ i rfl)

theorem Acts.dropAll (s : State) (i : SlotId) (c : DropCause) : Acts s (s.dropAll i c) [i] none :=
  (Acts.dropInFlight s i c).before (Acts.modSlot _ i rfl)

theorem resolveDeferred_of_refused {tag : Tag} {c : Option Nat} (hp : s.port.inProgress = some (.openBridge tag i c))
    (hst : (s.slot i).state ≠ .ready) (he : (s.slot i).link.exchange = none) :
    s.resolveDeferred i =
      State.answer { s with port := { s.port with inProgress := none } } tag codeOpenBridge .wrongState := by
  simp [State.resolveDeferred, hp, he, hst]

/-- A slot that is not READY and has no exchange in progress refuses the OPEN_BRIDGE that waits on it (log 18). -/
theorem Acts.resolveDeferred (hst : (s.slot i).state ≠ .ready) (he : (s.slot i).link.exchange = none) :
    Acts s (s.resolveDeferred i) [i] (refusal s i) := by
  cases hd : s.deferredOn i with
  | false =>
    rw [refusal_of_not_deferred hd, resolveDeferred_of_not_deferred hd]
    exact .refl s [i]
  | true =>
    obtain ⟨tag, c, hp⟩ : ∃ tag c, s.port.inProgress = some (.openBridge tag i c) := by
      unfold State.deferredOn at hd
      split at hd
      · next tag j c hp => exact ⟨tag, c, by rw [hp, of_decide_eq_true hd]⟩
      · cases hd
    rw [refusal_of_openBridge hp, resolveDeferred_of_refused hp hst he]
    set v : State := { s with port := { s.port with inProgress := none } } with hv
    have hk := answer_keeps v tag codeOpenBridge .wrongState 0 .none
    have hslot (j : SlotId) : (v.answer tag codeOpenBridge .wrongState).slot j = s.slot j := slot_answer ..
    have hnotices : (v.answer tag codeOpenBridge .wrongState).uplink.notices = s.uplink.notices := by
      obtain ⟨-, -, -, hn, -⟩ := arbitrate_classes
        { v with uplink := { v.uplink with receipts := v.uplink.receipts ++ [⟨tag, codeOpenBridge, .wrongState, 0, .none⟩] } }
      exact hn
    exact {
      keeps := ((withPort_keeps s _).mono (by decide)).step hk (by decide)
      slots := fun j _ => hslot j
      port := hk .port (by decide)
      silent := by simp
      answers := fun q hq hc => by
        obtain rfl := Option.some.inj hq
        obtain ⟨hrec, hg, hb, -⟩ := answer_receiptJoins (s := v) (tag := tag) (kind := codeOpenBridge) (c := .wrongState)
          (detail := 0) (reply := .none) hc
        exact ⟨hrec, hg, hb⟩
      notices := by
        simp only [noticesFollow, hnotices, hslot, List.filter_cons, List.filter_nil, Bool.not_and_self, Bool.false_eq_true,
          if_false, List.append_nil]
      flags := fun j hj => by rw [hslot]; exact hj }

/-! ### How a slot stops -/

theorem Acts.stopSlot (s : State) (i : SlotId) (c : DropCause) {dest : SlotState} (h : dest ≠ .ready) :
    Acts s (s.stopSlot i c dest) [i] (refusal s i) := by
  have hd := Acts.dropAll s i c
  have hm : Acts s ((s.dropAll i c).modSlot i fun x => { x.halt with state := dest }) [i] none :=
    hd.before (Acts.modSlot _ i rfl)
  rw [← refusal_congr hm.port i]
  refine hm.before (Acts.resolveDeferred ?_ ?_)
  · rw [State.slot_modSlot_same]; exact h
  · rw [State.slot_modSlot_same]; rfl

theorem Acts.writeFault (s : State) (i : SlotId) (c : FaultCause) (d : Half) : Acts s (s.writeFault i c d) [i] none := by
  unfold State.writeFault
  split
  · exact .refl s [i]
  · exact (Acts.modSlot s i rfl).before (Acts.raise _ i .fault)

theorem Acts.enterFault (s : State) (i : SlotId) (c : FaultCause) (d : Half) :
    Acts s (s.enterFault i c d) [i] (refusal s i) :=
  ((Acts.stopSlot s i .slotFault (by decide)).after (Acts.modSlot _ i rfl)).after (Acts.writeFault _ i c d)

theorem Acts.enterInhibited (s : State) (i : SlotId) (c : DropCause) : Acts s (s.enterInhibited i c) [i] (refusal s i) :=
  (Acts.stopSlot s i c (by decide)).after (Acts.raise _ i .inhibit)

theorem Acts.enterRecovering (s : State) (i : SlotId) (c : RestartCause) : Acts s (s.enterRecovering i c) [i] none :=
  ((Acts.releaseReference s i).before (Acts.modSlot _ i rfl)).before (Acts.raise _ i .recovery)

theorem Acts.recoveryDecision (s : State) (i : SlotId) (c : FaultCause) (d : Half) :
    Acts s (s.recoveryDecision i c d) [i] (refusal s i) := by
  unfold State.recoveryDecision
  split
  · have hr : Acts s _ [i] none :=
      (Acts.modSlot s i (f := fun x => { x with recoveryAttempts := x.recoveryAttempts + 1 }) rfl).before
        (Acts.enterRecovering _ i .part)
    rw [← refusal_congr hr.port i]
    refine hr.before (Acts.resolveDeferred ?_ ?_)
    · rw [slot_enterRecovering, if_pos rfl]; exact SlotState.noConfusion
    · rw [slot_enterRecovering, if_pos rfl]; rfl
  · exact Acts.enterFault s i c d

/-! ### Presence and power-up -/

theorem Acts.enterPowering (s : State) (i : SlotId) : Acts s (s.enterPowering i) [i] none := Acts.modSlot s i rfl

theorem Acts.keepNestCode (s : State) (i : SlotId) : Acts s (s.keepNestCode i) [i] none := by
  unfold State.keepNestCode
  split
  · exact Acts.modSlot s i rfl
  · exact .refl s [i]

theorem Acts.admitSeated (s : State) (i : SlotId) : Acts s (s.admitSeated i) [i] none := by
  have hn := Acts.keepNestCode s i
  unfold State.admitSeated
  dsimp only
  split
  · exact (hn.before (Acts.modSlot _ i rfl)).before (Acts.writeFault _ i .nestCode _)
  · split
    · exact (hn.before (Acts.modSlot _ i rfl)).before (Acts.enterPowering _ i)
    · exact hn.before (Acts.modSlot _ i rfl)

theorem Acts.attachVacant (s : State) (i : SlotId) : Acts s (s.attachVacant i) [i] none := by
  unfold State.attachVacant
  split
  · exact Acts.modSlot s i rfl
  · exact Acts.admitSeated s i

theorem Acts.leaveInhibited (s : State) (i : SlotId) : Acts s (s.leaveInhibited i) [i] none := by
  unfold State.leaveInhibited
  split
  · exact Acts.modSlot s i rfl
  · split
    · exact Acts.admitSeated s i
    · exact Acts.modSlot s i rfl

end Sys2Proof.Machine.SlotActs
end

section
/-! PROOF. One action on each slot of a list (1.4, 1.5): what the list of actions makes of the slots, of the references, of the
uplink, and the outcomes a SLOT_CONTROL answers with. -/

namespace Sys2Proof.Machine.SlotActs

open Tables FanOut PowerBlock

variable {s t u : State} {i j : SlotId} {l : List SlotId} {r : Option Receipt}

/-! ### References released -/

theorem images_ext (h : ∀ k, t.image k = s.image k) : t.images = s.images :=
  Vector.ext fun k hk => h ⟨k, hk⟩

/-- Image records that stay have no reference released. -/
theorem releases_of_images {gone : SlotId → Bool} (hi : t.images = s.images) (hg : ∀ j, gone j = false) :
    releasesReferences s t gone := by
  intro k
  simp [State.image, hi, hg]

theorem images_of_releases {gone : SlotId → Bool} (h : releasesReferences s t gone) (hg : ∀ j, gone j = false) :
    t.images = s.images :=
  images_ext fun k => by simpa [hg] using h k

theorem releases_gone_congr {gone gone' : SlotId → Bool} (h : releasesReferences s t gone) (hg : ∀ j, gone' j = gone j) :
    releasesReferences s t gone' := by
  rwa [show gone' = gone from funext hg]

/-- Releases by some slots, and then by others that held the same before. -/
theorem releases_trans {g1 g2 : SlotId → Bool} (h1 : releasesReferences s t g1) (h2 : releasesReferences t u g2)
    (hd : ∀ j, g1 j = true → g2 j = false) (hs : ∀ j, g2 j = true → t.slot j = s.slot j) :
    releasesReferences s u fun j => g1 j || g2 j := by
  intro k
  have hcount (l : List SlotId) :
      (l.filter fun j => (g1 j || g2 j) && (s.slot j).holds k).length =
        (l.filter fun j => g1 j && (s.slot j).holds k).length + (l.filter fun j => g2 j && (t.slot j).holds k).length := by
    induction l with
    | nil => rfl
    | cons a l ih =>
      have ha := hd a
      have hb := hs a
      simp only [List.filter_cons]
      cases hg1 : g1 a with
      | true =>
        rw [ha hg1]
        simp only [Bool.true_or, Bool.true_and, Bool.false_and, Bool.false_eq_true, if_false]
        split
        · rw [List.length_cons, List.length_cons, ih]; omega
        · exact ih
      | false =>
        cases hg2 : g2 a with
        | false => simpa using ih
        | true =>
          rw [hb hg2]
          simp only [Bool.or_true, Bool.true_and, Bool.false_and, Bool.false_eq_true, if_false]
          split
          · rw [List.length_cons, List.length_cons, ih]; omega
          · exact ih
  rw [h2 k, h1 k, hcount, Nat.sub_add_eq]

theorem releaseReference_of_no_stream (h : (s.slot i).stream = none) : s.releaseReference i = s := by
  simp [State.releaseReference, h]

theorem stopSlot_releases (s : State) (i : SlotId) (c : DropCause) (dest : SlotState) :
    releasesReferences s (s.stopSlot i c dest) (· == i) :=
  releasesReferences_congr (resolveDeferred_keeps _ i .images (by decide)) (releaseReference_releases s i)

theorem enterInhibited_releases (s : State) (i : SlotId) (c : DropCause) :
    releasesReferences s (s.enterInhibited i c) (· == i) :=
  releasesReferences_congr (raise_keeps _ i .inhibit .images (by decide)) (stopSlot_releases s i c .inhibited)

/-! ### One action on each slot of a list -/

/-- An action on one slot: what it makes of the slot by the time, the notice mask, the tables and the interlocks, and on
which slots it stops the work, releasing a reference and refusing an OPEN_BRIDGE that waits. -/
structure ActsBy (f : State → SlotId → State) (g : State → SlotId → Slot → Slot) (stops : Slot → Bool) : Prop where
  acts : ∀ s i, Acts s (f s i) [i] (if stops (s.slot i) then refusal s i else none)
  slot : ∀ s i, (f s i).slot i = g s i (s.slot i)
  env : ∀ s t i x, keepsBut [.port, .uplink, .images, .slots] s t → g t i x = g s i x
  images : ∀ s i, releasesReferences s (f s i) fun j => j == i && stops (s.slot i)

section
variable {f : State → SlotId → State} {g : State → SlotId → Slot → Slot} {stops : Slot → Bool}

theorem ActsBy.slot_ne (h : ActsBy f g stops) (s : State) (hj : j ≠ i) : (f s i).slot j = s.slot j :=
  (h.acts s i).slotsBut_one j hj

/-- The action only where the slot allows it. -/
theorem ActsBy.when (h : ActsBy f g stops) (allows : Slot → Bool) :
    ActsBy (fun s i => if allows (s.slot i) then f s i else s) (fun s i x => if allows x then g s i x else x)
      (fun x => allows x && stops x) where
  acts s i := by
    cases ha : allows (s.slot i) with
    | true => simpa using h.acts s i
    | false => simpa using Acts.refl s [i]
  slot s i := by
    split
    · exact h.slot s i
    · rfl
  env s t i x hk := by rw [h.env s t i x hk]
  images s i := by
    cases ha : allows (s.slot i) with
    | true => simpa using h.images s i
    | false => exact releases_of_images rfl (by simp)

/-- The receipt of the refused OPEN_BRIDGE among the slots of a list that stop. -/
def refusalOf (s : State) (stops : Slot → Bool) (l : List SlotId) : Option Receipt :=
  l.findSome? fun i => if stops (s.slot i) then refusal s i else none

theorem refusalOf_eq_none (h : ∀ i ∈ l, stops (s.slot i) = true → refusal s i = none) : refusalOf s stops l = none := by
  rw [refusalOf, List.findSome?_eq_none_iff]
  intro i hi
  split
  · next hst => exact h i hi hst
  · rfl

theorem refusalOf_congr (hp : t.port = s.port) (h : ∀ i ∈ l, t.slot i = s.slot i) :
    refusalOf t stops l = refusalOf s stops l := by
  induction l with
  | nil => rfl
  | cons a l ih =>
    obtain ⟨ha, hl⟩ := List.forall_mem_cons.mp h
    have hrest := ih hl
    simp only [refusalOf, List.findSome?_cons, ha, refusal_congr hp] at hrest ⊢
    rw [hrest]

/-- What the slots of a list become when each is acted on once, in the list's order. -/
theorem ActsBy.foldl (h : ActsBy f g stops) {l : List SlotId} (hl : l.Nodup) (s : State) :
    Acts s (l.foldl f s) l (refusalOf s stops l) ∧ (∀ j ∈ l, (l.foldl f s).slot j = g s j (s.slot j)) ∧
      releasesReferences s (l.foldl f s) fun j => decide (j ∈ l) && stops (s.slot j) := by
  induction l generalizing s with
  | nil => exact ⟨.refl s [], by simp, releases_of_images rfl (by simp)⟩
  | cons i l ih =>
    obtain ⟨hi, hl⟩ := List.nodup_cons.mp hl
    have hfirst := h.acts s i
    obtain ⟨hacts, hslot, himages⟩ := ih hl (f s i)
    have hne (j : SlotId) (hj : j ∈ l) : (f s i).slot j = s.slot j := h.slot_ne s fun he => hi (he ▸ hj)
    rw [List.foldl_cons]
    refine ⟨?_, fun j hj => ?_, ?_⟩
    · cases hr : (if stops (s.slot i) then refusal s i else none) with
      | none =>
        rw [hr] at hfirst
        have hrest : refusalOf (f s i) stops l = refusalOf s stops l := refusalOf_congr hfirst.port hne
        have ho : refusalOf s stops (i :: l) = refusalOf (f s i) stops l := by
          rw [hrest, refusalOf, List.findSome?_cons, hr]; rfl
        rw [ho]
        exact hfirst.append hacts (.inl rfl) (by simpa using hi)
      | some q =>
        rw [hr] at hfirst
        have hidle : (f s i).port.inProgress = none := by rw [hfirst.port]; rfl
        rw [refusalOf_eq_none fun j _ _ => refusal_of_idle hidle j] at hacts
        have ho : refusalOf s stops (i :: l) = some q := by rw [refusalOf, List.findSome?_cons, hr]
        rw [ho]
        exact hfirst.append hacts (.inr rfl) (by simpa using hi)
    · rcases List.mem_cons.mp hj with rfl | hj
      · rw [hacts.slots j hi, h.slot]
      · rw [hslot j hj, hne j hj, h.env s _ j _ hfirst.keeps]
    · refine releases_gone_congr (releases_trans (h.images s i) himages (fun j hj => ?_) fun j hj => ?_) fun j => ?_
      · obtain ⟨rfl, -⟩ : j = i ∧ _ := by simpa using hj
        simp [hi]
      · exact hne j (by simp_all)
      · by_cases hji : j = i
        · subst hji; simp [hi]
        · by_cases hj : j ∈ l
          · simp [hji, hj, hne j hj]
          · simp [hji, hj]

/-- Actions that stop no slot refuse no OPEN_BRIDGE. -/
theorem ActsBy.silent_foldl (h : ActsBy f g fun _ => false) {l : List SlotId} (hl : l.Nodup) (s : State) :
    Acts s (l.foldl f s) l none := by
  have hacts := (h.foldl hl s).1
  rwa [refusalOf_eq_none (by simp)] at hacts

/-- What every slot becomes. -/
theorem ActsBy.slot_foldl (h : ActsBy f g stops) {l : List SlotId} (hl : l.Nodup) (s : State) (j : SlotId) :
    (l.foldl f s).slot j = if j ∈ l then g s j (s.slot j) else s.slot j := by
  obtain ⟨hacts, hslot, -⟩ := h.foldl hl s
  split
  · next hj => exact hslot j hj
  · next hj => exact hacts.slots j hj

/-! ### The outcomes of a request that acts on a set (1.5) -/

/-- The slots of a set act one after the other where they allow it. -/
theorem actOn_fst (allows : Slot → Bool) (l : List SlotId) (s : State) :
    (s.actOn allows f l).1 = l.foldl (fun s i => if allows (s.slot i) then f s i else s) s := by
  induction l generalizing s with
  | nil => rfl
  | cons i l ih => rw [actOn_cons, List.foldl_cons]; exact ih _

/-- Each slot of a list of different slots answers by its own state, which the actions before have not touched. -/
theorem ActsBy.outcomes (h : ActsBy f g stops) (allows : Slot → Bool) {l : List SlotId} (hl : l.Nodup) (s : State) :
    (s.actOn allows f l).2 = l.map fun i => (i, if allows (s.slot i) then .ok else .wrongState) := by
  induction l generalizing s with
  | nil => rfl
  | cons i l ih =>
    obtain ⟨hi, hl⟩ := List.nodup_cons.mp hl
    rw [actOn_cons, List.map_cons]
    refine congrArg _ ((ih hl _).trans (List.map_congr_left fun j hj => ?_))
    have hne : j ≠ i := fun he => hi (he ▸ hj)
    rw [(h.when allows).slot_ne s hne]

end

/-! ### SLOT_CONTROL (R24) -/

theorem idle_of_intakeOpen (h : s.intakeOpen = true) : s.port.inProgress = none := by
  simp only [State.intakeOpen, Bool.and_eq_true, Option.isNone_iff_eq_none] at h
  obtain ⟨⟨⟨-, hp⟩, -⟩, -⟩ := h
  exact hp

/-- What a SLOT_CONTROL that is accepted makes of the device: the receipt with the outcomes, the slots that allow the action
as `g` says, and the references of the slots that stop released. -/
structure Controlled (s t : State) (tag : Tag) (set : SlotSet) (allows : Slot → Bool) (g : State → SlotId → Slot → Slot)
    (stops : Slot → Bool) : Prop where
  answers : answersWithNotices s t
    ⟨tag, 0x04, .accepted, 0, .outcomes ((slotsOf set).map fun i => (i, if allows (s.slot i) then .ok else .wrongState))⟩
    (slotsOf set)
  keeps : keepsBut [.uplink, .images, .slots] s t
  slot : ∀ j, t.slot j = if j ∈ slotsOf set ∧ allows (s.slot j) = true then g s j (s.slot j) else s.slot j
  releases : releasesReferences s t fun j => decide (j ∈ slotsOf set) && (allows (s.slot j) && stops (s.slot j))

/-- A receipt that joins after the actions of its request. -/
theorem Acts.answersWithNotices {tag : Tag} {kind : Byte} {c : ResultCode} {detail : Half} {reply : Reply}
    (h : Acts s t l none) (hc : s.port.configured = true) :
    answersWithNotices s (t.answer tag kind c detail reply) ⟨tag, kind, c, detail, reply⟩ l := by
  obtain ⟨hrec, hg, hb, hn⟩ := answer_receiptJoins (s := t) (tag := tag) (kind := kind) (c := c) (detail := detail)
    (reply := reply) (by rw [h.port]; exact hc)
  have hu := h.silent rfl
  rw [receiptQueued] at hrec
  rw [hu] at hrec hg hb
  refine ⟨hrec, hg, hb, ?_⟩
  have hnotices : t.uplink.notices = _ := h.notices
  simp only [noticesFollow, hn, hnotices, slot_answer]

theorem ActsBy.controlled {f : State → SlotId → State} {g : State → SlotId → Slot → Slot} {stops : Slot → Bool}
    (h : ActsBy f g stops) (allows : Slot → Bool) {tag : Tag} {set : SlotSet} (hs : s.intakeOpen = true)
    (hset : s.straps.namesUnfitted set = false) :
    Controlled s (s.slotControl tag (.shaped set) allows f) tag set allows g stops := by
  have hw := h.when allows
  obtain ⟨hacts, -, himages⟩ := hw.foldl (slotsOf_nodup set) s
  rw [refusalOf_eq_none fun i _ _ => refusal_of_idle (idle_of_intakeOpen hs) i] at hacts
  have hrun : s.slotControl tag (.shaped set) allows f =
      ((slotsOf set).foldl (fun s i => if allows (s.slot i) then f s i else s) s).answer tag codeSlotControl .accepted 0
        (.outcomes ((slotsOf set).map fun i => (i, if allows (s.slot i) then .ok else .wrongState))) := by
    rw [State.slotControl, requestWith_shaped hs, State.control, if_neg (by simp [hset]), ← actOn_fst,
      ← h.outcomes allows (slotsOf_nodup set) s]
    rfl
  rw [hrun]
  have hport : ∀ p, p ∉ [Part.uplink, .images, .slots] → Part.same s
      ((slotsOf set).foldl (fun s i => if allows (s.slot i) then f s i else s) s) p := by
    intro p hp
    by_cases hpp : p = .port
    · subst hpp; exact hacts.port
    · exact hacts.keeps p (by simp_all)
  refine ⟨hacts.answersWithNotices (configured_of_intakeOpen hs), keepsBut.step hport (answer_keeps _ _ _ _ _ _) (by decide),
    fun j => ?_, ?_⟩
  · rw [slot_answer, hw.slot_foldl (slotsOf_nodup set)]
    by_cases hj : j ∈ slotsOf set <;> by_cases ha : allows (s.slot j) = true <;> simp [hj, ha]
  · exact releasesReferences_congr (answer_keeps _ _ _ _ _ _ .images (by decide)) himages

/-- A request on a set that stops no slot changes no image record. -/
theorem Controlled.keeps_of_no_stop {tag : Tag} {set : SlotSet} {allows : Slot → Bool} {g : State → SlotId → Slot → Slot}
    (h : Controlled s t tag set allows g fun _ => false) : keepsBut [.uplink, .slots] s t := by
  intro p hp
  by_cases hpi : p = .images
  · subst hpi; exact images_of_releases h.releases (by simp)
  · exact h.keeps p (by simp_all)

end Sys2Proof.Machine.SlotActs
end

section
/-! PROOF. What the seven actions of SLOT_CONTROL make of a slot (1.4, 1.5), and the four statements about them. -/

namespace Sys2Proof.Machine.SlotActs

open Tables FanOut PowerBlock

variable {s t u : State} {i j : SlotId} {tag : Tag} {set : SlotSet}

/-! ### The nest check and the admission of a seated slot (1.2) -/

theorem nestCheck_eq (s : State) (i : SlotId) : s.nestCheck i = (s.slot i).nestFails (s.expectedCode i) := by
  unfold State.nestCheck State.expectedCode Slot.nestFails
  cases s.fixture with
  | none => rfl
  | some codes =>
    have hcodes : (validCode (s.slot i).nestLines && (s.slot i).nestLines == codes.get i) = true ↔
        codeWeight (s.slot i).nestLines = 4 ∧ (s.slot i).nestLines = codes.get i := by
      simp [validCode]
    simp only [Option.map_some, hcodes]

theorem slot_keepNestCode (s : State) (i j : SlotId) :
    (s.keepNestCode i).slot j = if j = i then (s.slot i).nestRead (s.expectedCode i) else s.slot j := by
  unfold State.keepNestCode Slot.nestRead State.expectedCode
  cases s.fixture with
  | none =>
    by_cases hj : j = i
    · subst hj; simp
    · simp [hj]
  | some codes => simp [State.slot_modSlot]

theorem nestRead_eq (x : Slot) (expected : Option Byte) :
    x.nestRead expected = { x with lastNestCode := (x.nestRead expected).lastNestCode } := by
  unfold Slot.nestRead
  split <;> rfl

/-- A slot that holds no fault record is admitted: the nest check, then autostart (R4). -/
theorem slot_admitSeated (h : (s.slot i).faultRecord = none) (j : SlotId) :
    (s.admitSeated i).slot j =
      if j = i then (s.slot i).admitted (s.expectedCode i) s.now s.noticeMask else s.slot j := by
  by_cases hj : j = i
  · subst hj
    rw [if_pos rfl]
    have hk := keepNestCode_keeps s j
    have hnow : (s.keepNestCode j).now = s.now := hk .time (by decide)
    have hmask : (s.keepNestCode j).noticeMask = s.noticeMask := hk .mask (by decide)
    have hslot : (s.keepNestCode j).slot j = (s.slot j).nestRead (s.expectedCode j) := by rw [slot_keepNestCode, if_pos rfl]
    have hrec : ((s.slot j).nestRead (s.expectedCode j)).faultRecord = none := by rw [nestRead_eq]; exact h
    unfold State.admitSeated Slot.admitted
    rw [nestCheck_eq]
    cases (s.slot j).nestFails (s.expectedCode j) with
    | some e =>
      simp only [slot_writeFault, State.slot_modSlot_same, hslot, hrec, State.modSlot_now, hnow, State.modSlot_noticeMask,
        hmask, Option.isSome_none, and_self, if_true]
      rfl
    | none =>
      by_cases ha : (s.slot j).profile.autostart = true
      · simp only [ha, if_true, slot_enterPowering, State.slot_modSlot_same, hslot, State.modSlot_now, hnow]
        rfl
      · simp only [if_neg ha, State.slot_modSlot_same, hslot]
  · rw [if_neg hj, (Acts.admitSeated s i).slotsBut_one j hj]

theorem slot_leaveInhibited (s : State) (i j : SlotId) :
    (s.leaveInhibited i).slot j =
      if j = i then (s.slot i).uninhibited (s.expectedCode i) s.now s.noticeMask else s.slot j := by
  unfold State.leaveInhibited Slot.uninhibited
  by_cases hr : (s.slot i).faultRecord.isSome = true
  · rw [if_pos hr, if_pos hr, State.slot_modSlot]
  · rw [if_neg hr, if_neg hr]
    by_cases hp : (s.slot i).present = true
    · rw [if_pos hp, if_pos hp, slot_admitSeated (by simpa using hr)]
    · rw [if_neg hp, if_neg hp, State.slot_modSlot]

/-! ### The actions -/

theorem powerOn_actsBy : ActsBy (fun s i => (s.modSlot i fun x => { x with restartCause := .host }).enterPowering i)
    (fun s _ x => Slot.poweredUp { x with restartCause := .host } s.now) fun _ => false where
  acts s i := (Acts.modSlot s i rfl).before (Acts.enterPowering _ i)
  slot s i := by
    rw [slot_enterPowering, if_pos rfl, State.slot_modSlot_same]
    rfl
  env s t i x hk := by rw [hk.time (by decide)]
  images s i := releases_of_images rfl (by simp)

theorem powerOff_actsBy : ActsBy (fun s i => s.stopSlot i .powerOff .off) (fun _ _ x => x.stopped .powerOff .off)
    fun _ => true where
  acts s i := Acts.stopSlot s i .powerOff (by decide)
  slot s i := by rw [slot_stopSlot s i .powerOff (by decide), if_pos rfl]
  env s t i x _ := rfl
  images s i := releases_gone_congr (stopSlot_releases s i .powerOff .off) (by simp)

theorem stream_stopped (x : Slot) (c : DropCause) (dest : SlotState) : (x.stopped c dest).stream = none := rfl

/-- A slot that stops in RECOVERING has no stream left whose reference `enterRecovering` could release. -/
theorem slot_cycle (s : State) (i j : SlotId) :
    ((s.stopSlot i .powerOff .recovering).enterRecovering i .host).slot j =
      if j = i then
        Slot.raised
          { (s.slot i).stopped .powerOff .recovering with
            restartCause := .host, offTimer := some ⟨s.now, (s.slot i).profile.recoverOff⟩ } .recovery s.noticeMask
      else s.slot j := by
  rw [slot_enterRecovering, stopSlot_now, stopSlot_mask]
  simp only [slot_stopSlot s i .powerOff (dest := .recovering) (by decide), if_true]
  split <;> rfl

theorem cycle_actsBy : ActsBy (fun s i => (s.stopSlot i .powerOff .recovering).enterRecovering i .host)
    (fun s _ x =>
      Slot.raised
        { x.stopped .powerOff .recovering with
          restartCause := .host, offTimer := some ⟨s.now, x.profile.recoverOff⟩ } .recovery s.noticeMask)
    fun _ => true where
  acts s i := (Acts.stopSlot s i .powerOff (by decide)).after (Acts.enterRecovering _ i .host)
  slot s i := by rw [slot_cycle, if_pos rfl]
  env s t i x hk := by rw [hk.time (by decide), hk .mask (by decide)]
  images s i := by
    refine releases_gone_congr (releasesReferences_congr ?_ (stopSlot_releases s i .powerOff .recovering)) (by simp)
    have hstream : ((s.stopSlot i .powerOff .recovering).slot i).stream = none := by
      rw [slot_stopSlot s i .powerOff (by decide), if_pos rfl]
      rfl
    rw [State.enterRecovering, releaseReference_of_no_stream hstream]
    exact raise_keeps _ i .recovery .images (by decide)

/-- A slot that RESET_SLOT has reset (R26). -/
def resetBy (x : Slot) (now : Count) : Slot :=
  Slot.startDebounce { x.stopped .slotReset x.resetState with ring := [], wrapped := false, recoveryAttempts := 0 } now

theorem resetState_ne_ready (x : Slot) : x.resetState ≠ .ready := by
  unfold Slot.resetState
  split
  · decide
  · decide
  · decide
  · split <;> decide

theorem resetSlot_actsBy :
    ActsBy
      (fun s i =>
        (s.stopSlot i .slotReset (s.slot i).resetState).modSlot i fun x =>
          Slot.startDebounce { x with ring := [], wrapped := false, recoveryAttempts := 0 } s.now)
      (fun s _ x => resetBy x s.now) fun _ => true where
  acts s i := (Acts.stopSlot s i .slotReset (resetState_ne_ready _)).after (Acts.modSlot _ i rfl)
  slot s i := by
    rw [State.slot_modSlot_same, slot_stopSlot s i .slotReset (resetState_ne_ready _), if_pos rfl]
    rfl
  env s t i x hk := by rw [hk.time (by decide)]
  images s i := releases_gone_congr (stopSlot_releases s i .slotReset _) (by simp)

/-- A slot whose fault record CLEAR_FAULT has cleared: it is VACANT, or its nest is checked (R27). -/
def faultCleared (x : Slot) (expected : Option Byte) (now : Count) (mask : BitVec 8) : Slot :=
  if x.present = false then { x with faultRecord := none, state := .vacant }
  else
    match x.nestFails expected with
    | some e => Slot.raised { x.nestRead expected with faultRecord := some ⟨.nestCode, now, e ++ x.nestLines, 0⟩ } .fault mask
    | none => { x.nestRead expected with faultRecord := none, state := .off }

theorem nestRead_without_record (x : Slot) (expected : Option Byte) :
    Slot.nestRead { x with faultRecord := none } expected = { x.nestRead expected with faultRecord := none } := by
  unfold Slot.nestRead
  split <;> rfl

theorem slot_clearFault (s : State) (i : SlotId) :
    (s.clearFault i).slot i = faultCleared (s.slot i) (s.expectedCode i) s.now s.noticeMask := by
  unfold State.clearFault faultCleared
  rw [nestCheck_eq]
  set t := s.modSlot i fun x => { x with faultRecord := none } with ht
  have hcode : t.expectedCode i = s.expectedCode i := rfl
  have hnow : (t.keepNestCode i).now = s.now := keepNestCode_keeps t i .time (by decide)
  have hmask : (t.keepNestCode i).noticeMask = s.noticeMask := keepNestCode_keeps t i .mask (by decide)
  have hslot : (t.keepNestCode i).slot i = { (s.slot i).nestRead (s.expectedCode i) with faultRecord := none } := by
    rw [slot_keepNestCode, if_pos rfl, hcode, ← nestRead_without_record, State.slot_modSlot_same]
  by_cases hp : (s.slot i).present = true
  · cases (s.slot i).nestFails (s.expectedCode i) with
    | some e => simp [hp, slot_writeFault, hslot, hnow, hmask, nestDetail]
    | none => simp [hp, hslot]
  · simp [hp, ht]

theorem clearFault_actsBy : ActsBy (fun s i => s.clearFault i)
    (fun s i x => faultCleared x (s.expectedCode i) s.now s.noticeMask) fun _ => false where
  acts s i := by
    have hm : Acts s (s.modSlot i fun x => { x with faultRecord := none }) [i] none := Acts.modSlot s i rfl
    unfold State.clearFault
    dsimp only
    split
    · split
      · exact (hm.before (Acts.keepNestCode _ i)).before (Acts.writeFault _ i .nestCode _)
      · exact (hm.before (Acts.keepNestCode _ i)).before (Acts.modSlot _ i rfl)
    · exact hm.before (Acts.modSlot _ i rfl)
  slot s i := slot_clearFault s i
  env s t i x hk := by rw [hk.time (by decide), hk .mask (by decide), State.expectedCode, hk .fixture (by decide)]; rfl
  images s i := by
    refine releases_of_images ?_ (by simp)
    unfold State.clearFault
    dsimp only
    split
    · split
      · exact (writeFault_keeps _ i _ _ .images (by decide)).trans (keepNestCode_keeps _ i .images (by decide))
      · exact keepNestCode_keeps _ i .images (by decide)
    · rfl

/-- A slot that DISABLE has disabled (R8, R27). -/
def disabledBy (x : Slot) (mask : BitVec 8) : Slot :=
  if x.state = .inhibited then { x with disabled := true }
  else Slot.raised ({ x with disabled := true }.stopped .disabled .inhibited) .inhibit mask

theorem disable_actsBy :
    ActsBy
      (fun s i =>
        let t := s.modSlot i fun x => { x with disabled := true }
        if (s.slot i).state = .inhibited then t else t.enterInhibited i .disabled)
      (fun s _ x => disabledBy x s.noticeMask) fun x => x.state != .inhibited where
  acts s i := by
    have hm : Acts s (s.modSlot i fun x => { x with disabled := true }) [i] none := Acts.modSlot s i rfl
    dsimp only
    by_cases hst : (s.slot i).state = .inhibited
    · rw [if_pos hst, if_neg (by simp [hst])]
      exact hm
    · rw [if_neg hst, if_pos (by simp [hst]), ← refusal_congr hm.port i]
      exact hm.before (Acts.enterInhibited _ i .disabled)
  slot s i := by
    unfold disabledBy
    dsimp only
    split
    · rw [State.slot_modSlot_same]
    · rw [slot_enterInhibited, if_pos rfl, State.slot_modSlot_same, State.modSlot_noticeMask]
  env s t i x hk := by rw [hk .mask (by decide)]
  images s i := by
    dsimp only
    by_cases hst : (s.slot i).state = .inhibited
    · rw [if_pos hst]
      exact releases_of_images rfl (by simp [hst])
    · rw [if_neg hst]
      refine releases_gone_congr ?_ (gone := (· == i)) (by simp [hst])
      exact releases_of_modSlot (f := fun x => { x with disabled := true }) (fun _ => rfl) (enterInhibited_releases _ i _)

/-- A slot that ENABLE has enabled (R9, R27). -/
def enabledBy (x : Slot) (isOpen : Bool) (expected : Option Byte) (now : Count) (mask : BitVec 8) : Slot :=
  if x.state = .inhibited ∧ isOpen = false then { x with disabled := false }.uninhibited expected now mask
  else { x with disabled := false }

theorem leaveInhibited_images (s : State) (i : SlotId) : (s.leaveInhibited i).images = s.images :=
  leaveInhibited_keeps s i .images (by decide)

theorem enable_actsBy :
    ActsBy
      (fun s i =>
        let t := s.modSlot i fun x => { x with disabled := false }
        if (s.slot i).state = .inhibited && !s.drawerOpen i then t.leaveInhibited i else t)
      (fun s i x => enabledBy x (s.drawerOpen i) (s.expectedCode i) s.now s.noticeMask) fun _ => false where
  acts s i := by
    have hm : Acts s (s.modSlot i fun x => { x with disabled := false }) [i] none := Acts.modSlot s i rfl
    dsimp only
    split
    · exact hm.before (Acts.leaveInhibited _ i)
    · exact hm
  slot s i := by
    have hiff : ((s.slot i).state = .inhibited && !s.drawerOpen i) = true ↔
        (s.slot i).state = .inhibited ∧ s.drawerOpen i = false := by simp
    unfold enabledBy
    simp only [hiff]
    split
    · rw [slot_leaveInhibited, if_pos rfl, State.slot_modSlot_same]
      rfl
    · rw [State.slot_modSlot_same]
  env s t i x hk := by
    obtain ⟨ha, hb⟩ : t.interlockA = s.interlockA ∧ t.interlockB = s.interlockB := hk .interlocks (by decide)
    have hopen : t.drawerOpen i = s.drawerOpen i := by
      unfold State.drawerOpen State.interlock
      rw [ha, hb]
    have hcode : t.expectedCode i = s.expectedCode i := by rw [State.expectedCode, hk .fixture (by decide)]; rfl
    rw [hk.time (by decide), hk .mask (by decide), hopen, hcode]
  images s i := by
    refine releases_of_images ?_ (by simp)
    dsimp only
    split
    · exact leaveInhibited_images _ i
    · rfl

/-! ### The requests -/

theorem exec_powerOn (h : s.intakeOpen = true) (hset : s.straps.namesUnfitted set = false) :
    ∃ t, exec (.powerOn tag (.shaped set)) s = .next t ∧
      Controlled s t tag set (fun x => x.state == .off)
        (fun s _ x => Slot.poweredUp { x with restartCause := .host } s.now) fun _ => false :=
  ⟨_, rfl, powerOn_actsBy.controlled _ h hset⟩

theorem exec_powerOff (h : s.intakeOpen = true) (hset : s.straps.namesUnfitted set = false) :
    ∃ t, exec (.powerOff tag (.shaped set)) s = .next t ∧
      Controlled s t tag set (fun x => x.state.powered) (fun _ _ x => x.stopped .powerOff .off) fun _ => true :=
  ⟨_, rfl, powerOff_actsBy.controlled _ h hset⟩

theorem exec_cycle (h : s.intakeOpen = true) (hset : s.straps.namesUnfitted set = false) :
    ∃ t, exec (.cycle tag (.shaped set)) s = .next t ∧
      Controlled s t tag set (fun x => x.state.powered || x.state == .off)
        (fun s _ x =>
          Slot.raised
            { x.stopped .powerOff .recovering with
              restartCause := .host, offTimer := some ⟨s.now, x.profile.recoverOff⟩ } .recovery s.noticeMask)
        fun _ => true :=
  ⟨_, rfl, cycle_actsBy.controlled _ h hset⟩

theorem exec_resetSlot (h : s.intakeOpen = true) (hset : s.straps.namesUnfitted set = false) :
    ∃ t, exec (.resetSlot tag (.shaped set)) s = .next t ∧
      Controlled s t tag set (fun x => x.state != .unfitted) (fun s _ x => resetBy x s.now) fun _ => true :=
  ⟨_, rfl, resetSlot_actsBy.controlled _ h hset⟩

theorem exec_clearFault (h : s.intakeOpen = true) (hset : s.straps.namesUnfitted set = false) :
    ∃ t, exec (.clearFault tag (.shaped set)) s = .next t ∧
      Controlled s t tag set (fun x => x.state == .fault)
        (fun s i x => faultCleared x (s.expectedCode i) s.now s.noticeMask) fun _ => false :=
  ⟨_, rfl, clearFault_actsBy.controlled _ h hset⟩

theorem exec_disable (h : s.intakeOpen = true) (hset : s.straps.namesUnfitted set = false) :
    ∃ t, exec (.disable tag (.shaped set)) s = .next t ∧
      Controlled s t tag set (fun x => x.state != .unfitted) (fun s _ x => disabledBy x s.noticeMask)
        fun x => x.state != .inhibited :=
  ⟨_, rfl, disable_actsBy.controlled _ h hset⟩

theorem exec_enable (h : s.intakeOpen = true) (hset : s.straps.namesUnfitted set = false) :
    ∃ t, exec (.enable tag (.shaped set)) s = .next t ∧
      Controlled s t tag set (fun x => x.state != .unfitted)
        (fun s i x => enabledBy x (s.drawerOpen i) (s.expectedCode i) s.now s.noticeMask) fun _ => false :=
  ⟨_, rfl, enable_actsBy.controlled _ h hset⟩

/-- A slot that is outside the set, or does not allow the action, is as it was. -/
theorem Controlled.decides {allows : Slot → Bool} {byState : SlotState → Bool} {g : State → SlotId → Slot → Slot}
    {stops : Slot → Bool} (h : Controlled s t tag set allows g stops) (ha : ∀ x, allows x = byState x.state) :
    answersWithNotices s t
        ⟨tag, 0x04, .accepted, 0,
          .outcomes ((slotsOf set).map fun i => (i, if byState (s.slot i).state then .ok else .wrongState))⟩
        (slotsOf set) ∧
      keepsBut [.uplink, .images, .slots] s t ∧
      slotsBut (fun i => i ∈ slotsOf set ∧ byState (s.slot i).state = true) s t := by
  simp only [← ha]
  exact ⟨h.answers, h.keeps, fun j hj => by rw [h.slot, if_neg hj]⟩

/-- Settles O16: each action is decided by its own test of the state, and the slots act in ascending order. -/
theorem slotControlDecidesByState : Obligations.SlotControlDecidesByState := by
  intro tag set s h hset p hp
  simp only [List.mem_cons, List.not_mem_nil, or_false] at hp
  rcases hp with rfl | rfl | rfl | rfl | rfl | rfl | rfl
  · obtain ⟨t, ht, hc⟩ := exec_powerOn (tag := tag) h hset
    exact ⟨t, ht, hc.decides fun _ => rfl⟩
  · obtain ⟨t, ht, hc⟩ := exec_powerOff (tag := tag) h hset
    exact ⟨t, ht, hc.decides fun _ => rfl⟩
  · obtain ⟨t, ht, hc⟩ := exec_cycle (tag := tag) h hset
    exact ⟨t, ht, hc.decides (byState := fun st => st.powered || st == .off) fun _ => rfl⟩
  · obtain ⟨t, ht, hc⟩ := exec_clearFault (tag := tag) h hset
    exact ⟨t, ht, hc.decides (byState := fun st => st == .fault) fun _ => rfl⟩
  · obtain ⟨t, ht, hc⟩ := exec_resetSlot (tag := tag) h hset
    exact ⟨t, ht, hc.decides (byState := fun st => st != .unfitted) fun _ => rfl⟩
  · obtain ⟨t, ht, hc⟩ := exec_disable (tag := tag) h hset
    exact ⟨t, ht, hc.decides (byState := fun st => st != .unfitted) fun _ => rfl⟩
  · obtain ⟨t, ht, hc⟩ := exec_enable (tag := tag) h hset
    exact ⟨t, ht, hc.decides (byState := fun st => st != .unfitted) fun _ => rfl⟩

/-- The slots of the set that allow the action. -/
theorem Controlled.slot_allowed {allows : Slot → Bool} {g : State → SlotId → Slot → Slot} {stops : Slot → Bool}
    (h : Controlled s t tag set allows g stops) (hi : i ∈ slotsOf set) (ha : allows (s.slot i) = true) :
    t.slot i = g s i (s.slot i) := by
  rw [h.slot, if_pos ⟨hi, ha⟩]

/-- Settles O17: what the three power actions make of the slots that allow them. -/
theorem powerActionsSwitchTheSlot : Obligations.PowerActionsSwitchTheSlot := by
  refine ⟨fun tag set s h hset => ?_, fun tag set s h hset => ⟨?_, ?_⟩⟩
  · obtain ⟨t, ht, hc⟩ := exec_powerOn (tag := tag) h hset
    exact ⟨t, ht, hc.keeps_of_no_stop, fun i hi hst => hc.slot_allowed hi (by simp [hst])⟩
  · obtain ⟨t, ht, hc⟩ := exec_powerOff (tag := tag) h hset
    exact ⟨t, ht, releases_gone_congr hc.releases (by simp), fun i hi hst => hc.slot_allowed hi hst⟩
  · obtain ⟨t, ht, hc⟩ := exec_cycle (tag := tag) h hset
    exact ⟨t, ht, releases_gone_congr hc.releases (by simp), fun i hi hst => hc.slot_allowed hi (by simpa using hst)⟩

/-- The state RESET_SLOT leaves a fitted slot in. -/
theorem resetState_of_fitted {x : Slot} (h : x.state ≠ .unfitted) :
    x.resetState =
      if x.state = .fault then .fault else if x.state = .inhibited then .inhibited else if x.present then .off else .vacant := by
  unfold Slot.resetState
  cases hst : x.state <;> simp_all

/-- Settles O18: RESET_SLOT stops the slot where its state and present flag say, CLEAR_FAULT checks the nest of a seated
one. -/
theorem resetSlotAndClearFault : Obligations.ResetSlotAndClearFault := by
  refine ⟨fun tag set s h hset => ?_, fun tag set s h hset => ?_⟩
  · obtain ⟨t, ht, hc⟩ := exec_resetSlot (tag := tag) h hset
    refine ⟨t, ht, releases_gone_congr hc.releases (by simp), fun i hi hst => ?_⟩
    rw [hc.slot_allowed hi (by simpa using hst), resetBy, resetState_of_fitted hst]
    rfl
  · obtain ⟨t, ht, hc⟩ := exec_clearFault (tag := tag) h hset
    exact ⟨t, ht, hc.keeps_of_no_stop, fun i hi hst => hc.slot_allowed hi (by simp [hst])⟩

/-- Settles O19: DISABLE inhibits a slot that is not INHIBITED; ENABLE lets one leave whose drawer is closed. -/
theorem disableAndEnableMoveTheInhibit : Obligations.DisableAndEnableMoveTheInhibit := by
  intro tag set s h hset
  refine ⟨?_, ?_⟩
  · obtain ⟨t, ht, hc⟩ := exec_disable (tag := tag) h hset
    exact ⟨t, ht, hc.releases, fun i hi hst => hc.slot_allowed hi (by simpa using hst)⟩
  · obtain ⟨t, ht, hc⟩ := exec_enable (tag := tag) h hset
    exact ⟨t, ht, hc.keeps_of_no_stop, fun i hi hst => hc.slot_allowed hi (by simpa using hst)⟩

end Sys2Proof.Machine.SlotActs
end

section
/-! PROOF. The requests that name a set of slots and are refused for an UNFITTED one, SET_PROFILE, and the requests that
report and change nothing but a console ring (chapters 1, 7 and 8; 4.8, 6.3). -/

namespace Sys2Proof.Machine.SlotRequests

open Tables FanOut PowerBlock UplinkQueues Bridging SlotActs

variable {s t u : State} {i j : SlotId} {tag : Tag} {set : SlotSet}

/-! ### Sets that name an UNFITTED slot (R2) -/

/-- A request whose run refuses it does nothing but answer. -/
theorem refused_onlyAnswers {α : Type} {kind : Byte} {c : ResultCode} {body : α} {run : α → State → State}
    (h : s.intakeOpen = true) (hrun : run body s = s.answer tag kind c) :
    onlyAnswers s (s.requestWith tag kind (.shaped body) run) ⟨tag, kind, c, 0, .none⟩ := by
  rw [requestWith_shaped h, hrun]
  exact answer_onlyAnswers h

theorem control_unfitted (h : s.straps.namesUnfitted set = true) (kind : Byte) (mask : Half) (allows : Slot → Bool)
    (act : State → SlotId → State) : s.control tag kind set mask allows act = s.answer tag kind .badSlot := by
  rw [State.control, if_pos h]

/-- Settles O14: in each of these requests the test of the set is the first that its run makes, or the first after the
checks that are assumed to pass. -/
theorem setsWithUnfittedSlotsAreRefused : Obligations.SetsWithUnfittedSlotsAreRefused := by
  intro tag set s h hset
  refine ⟨fun p hp => ?_, fun duration => ?_, fun pairs => ?_, fun f hf hcodes => ?_, fun f hf hpolicy h1 h31 => ?_⟩
  · simp only [List.mem_cons, List.not_mem_nil, or_false] at hp
    rcases hp with rfl | rfl | rfl | rfl | rfl | rfl | rfl | rfl | rfl | rfl
    · exact ⟨_, rfl, refused_onlyAnswers h (control_unfitted hset _ _ _ _)⟩
    · exact ⟨_, rfl, refused_onlyAnswers h (control_unfitted hset _ _ _ _)⟩
    · exact ⟨_, rfl, refused_onlyAnswers h (control_unfitted hset _ _ _ _)⟩
    · exact ⟨_, rfl, refused_onlyAnswers h (control_unfitted hset _ _ _ _)⟩
    · exact ⟨_, rfl, refused_onlyAnswers h (control_unfitted hset _ _ _ _)⟩
    · exact ⟨_, rfl, refused_onlyAnswers h (control_unfitted hset _ _ _ _)⟩
    · exact ⟨_, rfl, refused_onlyAnswers h (control_unfitted hset _ _ _ _)⟩
    · exact ⟨_, rfl, refused_onlyAnswers h (if_pos hset)⟩
    · exact ⟨_, rfl, refused_onlyAnswers h (if_pos hset)⟩
    · exact ⟨_, rfl, refused_onlyAnswers h (if_pos hset)⟩
  · exact ⟨_, rfl, refused_onlyAnswers h (control_unfitted hset _ _ _ _)⟩
  · exact ⟨_, rfl, refused_onlyAnswers h (if_pos hset)⟩
  · refine ⟨_, rfl, refused_onlyAnswers h ?_⟩
    subst hf
    simp only [hcodes, Bool.not_true, Bool.false_eq_true, if_false]
    exact if_pos hset
  · refine ⟨_, rfl, refused_onlyAnswers h ?_⟩
    subst hf
    simp only [groupRefusal_eq_none hpolicy h1 h31]
    exact if_pos hset

/-! ### SET_PROFILE (R21 to R23, R153) -/

theorem profileCodes_iff (f : ProfileFields) :
    profileCodes f = true ↔
      f.mask.toNat < 512 ∧ (f.mask.getLsbD 3 = true → f.autostart.toNat ≤ 1) ∧
        (f.mask.getLsbD 4 = true → f.autoRecover.toNat ≤ 1) := by
  have hflag (p : Bool) (b : Byte) : (!p || isFlagByte b) = true ↔ (p = true → b.toNat ≤ 1) := by
    cases p with
    | false => simp
    | true => simp [isFlagByte_iff]
  simp only [profileCodes, Bool.and_eq_true, hflag, decide_eq_true_eq, and_assoc]
  rfl

/-- A value that clamping changes is one of a present field. -/
theorem profileValue_changed (f : ProfileFields) (k lo hi v : Nat) :
    (profileValue f k lo hi v v != v) = (f.mask.getLsbD k && clampTo lo hi v != v) := by
  unfold profileValue profileHas
  cases f.mask.getLsbD k <;> simp

theorem profileMask_eq (f : ProfileFields) (ceiling : Nat) :
    profileMask f ceiling =
      maskOf
        [f.mask.getLsbD 0 && clampTo 0 ceiling f.rateCeiling.toNat != f.rateCeiling.toNat,
          f.mask.getLsbD 1 && clampTo 1000 120000 f.bootAllow.toNat != f.bootAllow.toNat,
          f.mask.getLsbD 2 && clampTo 0 10000 f.keyPress.toNat != f.keyPress.toNat, false, false,
          f.mask.getLsbD 5 && clampTo 100 10000 f.recoverOff.toNat != f.recoverOff.toNat,
          f.mask.getLsbD 6 && clampTo 100 3000 f.currentLimit.toNat != f.currentLimit.toNat,
          f.mask.getLsbD 7 && clampTo 1000 200000 f.tripBudget.toNat != f.tripBudget.toNat,
          f.mask.getLsbD 8 && clampTo 0 255 f.inrushBlank.toNat != f.inrushBlank.toNat] := by
  simp only [profileMask, profileValue_changed]

/-- A present rate_ceiling goes to the profile, or waits as the pending ceiling of a powered slot (R23). -/
theorem writeCeiling_eq (x : Slot) (f : ProfileFields) (ceiling : Nat) :
    x.writeCeiling f ceiling =
      { x with
        profile :=
          { x.profile with
            rateCeiling :=
              if f.mask.getLsbD 0 && !x.state.powered then clampTo 0 ceiling f.rateCeiling.toNat else x.profile.rateCeiling }
        pendingCeiling :=
          if f.mask.getLsbD 0 && x.state.powered then some (clampTo 0 ceiling f.rateCeiling.toNat)
          else x.pendingCeiling } := by
  unfold Slot.writeCeiling profileHas
  cases f.mask.getLsbD 0 with
  | false => simp
  | true => cases x.state.powered <;> simp

/-- A trip_budget at or below the accumulator of a slot whose VBUS is on holds the accumulator there, and trips (R153). -/
theorem applyBudget_eq (x : Slot) (has : Bool) :
    (if has then x.applyBudget else x) =
      let trips := has && x.power.vbus && decide (x.profile.tripBudget ≤ x.power.accumulator)
      { x with
        power :=
          if trips then
            { x.power with
              accumulator := x.profile.tripBudget
              trip := if x.power.trip = .clear then .overcurrent else x.power.trip }
          else x.power
        faultRequests :=
          if trips && x.power.trip == .clear then
            x.faultRequests ++ [⟨.overcurrent, BitVec.ofNat 16 x.power.latest, x.power.period⟩]
          else x.faultRequests } := by
  cases has with
  | false => simp
  | true =>
    unfold Slot.applyBudget
    cases hv : x.power.vbus && decide (x.profile.tripBudget ≤ x.power.accumulator) with
    | false => simp [hv]
    | true => by_cases ht : x.power.trip = .clear <;> simp [hv, ht]

theorem writeProfile_actsBy (f : ProfileFields) : ActsBy (fun s i => s.modSlot i fun x => x.writeProfile f s.straps.ceiling)
    (fun s _ x => x.writeProfile f s.straps.ceiling) fun _ => false where
  acts s i := Acts.modSlot s i (congrArg Prod.fst (waits_writeProfile (s.slot i) f s.straps.ceiling))
  slot s i := State.slot_modSlot_same s i _
  env s t i x hk := by rw [hk.straps (by decide)]
  images s i := releases_of_images rfl (by simp)

theorem setProfile_refused {f : ProfileFields} (h : s.intakeOpen = true) (hcodes : ¬ profileCodes f = true) :
    ∃ t, exec (.setProfile tag (.shaped f)) s = .next t ∧ onlyAnswers s t ⟨tag, 0x03, .malformed, 0, .none⟩ :=
  ⟨_, rfl, refused_onlyAnswers h (if_pos (by simpa using hcodes))⟩

theorem setProfile_accepted {f : ProfileFields} (h : s.intakeOpen = true) (hcodes : profileCodes f = true)
    (hset : s.straps.namesUnfitted f.set = false) :
    exec (.setProfile tag (.shaped f)) s =
      .next (((slotsOf f.set).foldl (fun u i => u.modSlot i fun x => x.writeProfile f u.straps.ceiling) s).answer tag
        codeSetProfile (clampResult (profileMask f s.straps.ceiling)) (profileMask f s.straps.ceiling)) := by
  change execSetProfile tag (.shaped f) s = _
  simp only [execSetProfile, requestWith_shaped h, hcodes, hset, Bool.not_true, Bool.false_eq_true, if_false]

/-- Settles O15: the mask of the clamped fields, and the fields of each slot of the set one by one. -/
theorem setProfileWritesThePresentFields : Obligations.SetProfileWritesThePresentFields := by
  intro tag f s h has codesHold ceiling changed mask
  refine ⟨fun hcodes => setProfile_refused h (mt (profileCodes_iff f).mp hcodes), fun hcodes hset => ?_⟩
  have hmask : profileMask f s.straps.ceiling = mask := profileMask_eq f ceiling
  have hk : keepsBut [.slots] s _ :=
    keepsBut.foldl (fun u i => u.modSlot i fun x => x.writeProfile f u.straps.ceiling) (fun u i => modSlot_keeps u i _)
      (slotsOf f.set) s
  have hslot := (writeProfile_actsBy f).slot_foldl (slotsOf_nodup f.set) s
  obtain ⟨hj, hk⟩ := change_then_answer (tag := tag) (kind := codeSetProfile) (c := clampResult mask) (detail := mask)
    (reply := .none) h hk (by decide) (by decide)
  have hexec := setProfile_accepted (tag := tag) h ((profileCodes_iff f).mpr hcodes) hset
  rw [hmask] at hexec
  refine ⟨_, hexec, hj, hk, fun i hi => ?_, fun i hi => ?_⟩
  · rw [slot_answer, hslot, if_neg hi]
  · intro x budget trips
    rw [slot_answer, hslot, if_pos hi, Slot.writeProfile]
    dsimp only
    rw [applyBudget_eq, writeCeiling_eq]
    rfl

/-! ### The queries (R28, R94, R131, R157) -/

theorem inFlightView_eq (x : Slot) :
    x.inFlightView =
      match x.inFlight with
      | none => .none
      | some ⟨none, _, _⟩ => .orphan
      | some ⟨some t, _, .directive⟩ => .directive t
      | some ⟨some t, _, .stream _⟩ => .stream t := by
  unfold Slot.inFlightView
  cases x.inFlight with
  | none => rfl
  | some f =>
    obtain ⟨owner, window, transaction⟩ := f
    cases owner with
    | none => rfl
    | some t => cases transaction <;> rfl

theorem mean_eq (p : PowerRecord) : p.mean = if p.history = [] then 0 else p.history.sum / p.history.length := by
  unfold PowerRecord.mean
  split
  · next h => simp [h]
  · rfl

/-- Settles O20: each query's run is its receipt. -/
theorem queriesReportAndChangeNothing : Obligations.QueriesReportAndChangeNothing := by
  intro tag set s h
  refine ⟨fun hset => ⟨?_, ?_⟩, ?_, ?_⟩
  · have hrun : exec (.querySlots tag (.shaped set)) s =
        .next (s.answer tag codeQuerySlots .accepted 0 (.slots ((slotsOf set).map s.slotRecord))) := by
      change execQuerySlots tag (.shaped set) s = _
      rw [execQuerySlots, requestWith_shaped h, if_neg (by simp [hset])]
    refine ⟨_, hrun, ?_⟩
    convert answer_onlyAnswers h using 6
    · rfl
    · simp only [State.slotRecord, inFlightView_eq] <;> rfl
  · have hrun : exec (.measure tag (.shaped set)) s =
        .next (s.answer tag codeMeasure .accepted 0 (.measurements ((slotsOf set).map s.measurement))) := by
      change execMeasure tag (.shaped set) s = _
      rw [execMeasure, requestWith_shaped h, if_neg (by simp [hset])]
    refine ⟨_, hrun, ?_⟩
    convert answer_onlyAnswers h using 6
    · rfl
    · simp only [State.measurement, mean_eq]
      rfl
  · have hrun : exec (.queryOperations tag (.shaped ())) s =
        .next (s.answer tag codeQueryOperations .accepted 0 (.operations s.freeGather (s.ops.map Operation.summary))) := by
      change execQueryOperations tag (.shaped ()) s = _
      rw [execQueryOperations, requestWith_shaped h]
    exact ⟨_, hrun, answer_onlyAnswers h⟩
  · have hrun : exec (.imageQuery tag (.shaped ())) s =
        .next (s.answer tag codeImageQuery .accepted 0 (.images s.freeUnits s.images.toList)) := by
      change execImageQuery tag (.shaped ()) s = _
      rw [execImageQuery, requestWith_shaped h]
    exact ⟨_, hrun, answer_onlyAnswers h⟩

/-! ### READ_CONSOLE (R161) -/

/-- READ_CONSOLE on a slot: a bridged one refuses it, any other answers with its ring and empties it. -/
def readConsoleOn (s : State) (tag : Tag) (i : SlotId) : State :=
  if (s.slot i).state = .bridge then s.answer tag codeReadConsole .wrongState
  else
    (s.modSlot i fun x => { x with ring := [], wrapped := false }).answer tag codeReadConsole .accepted 0
      (.console (s.slot i).wrapped (s.slot i).ring)

theorem readConsole_onSlot (h : s.intakeOpen = true) (number : Byte) :
    exec (.readConsole tag (.shaped number)) s = .next (s.onSlot tag codeReadConsole number (readConsoleOn s tag)) := by
  change execReadConsole tag (.shaped number) s = _
  rw [execReadConsole, requestWith_shaped h]
  rfl

/-- Settles O39: the slot named, and then its state. -/
theorem readConsoleEmptiesTheRing : Obligations.ReadConsoleEmptiesTheRing := by
  intro tag number s h
  refine ⟨fun hun => ?_, fun i hi hf => ⟨fun hst => ?_, fun hst => ?_⟩⟩
  · exact ⟨_, (readConsole_onSlot h number).trans (congrArg _ (onSlot_unfitted hun)), answer_onlyAnswers h⟩
  · exact ⟨_, (readConsole_onSlot h number).trans (congrArg _ ((onSlot_fitted hi hf).trans (if_pos hst))),
      answer_onlyAnswers h⟩
  · exact ⟨_, (readConsole_onSlot h number).trans (congrArg _ ((onSlot_fitted hi hf).trans (if_neg hst))),
      modSlot_then_answer h i _⟩

end Sys2Proof.Machine.SlotRequests
end

section
/-! PROOF. The step of the time base (5.1) and the timers that move a slot on (1.4, 7.2, 7.7). -/

namespace Sys2Proof.Machine.TimeBase

open Tables FanOut PowerBlock SlotActs

variable {s : State} {i : SlotId}

/-! ### The step of the time base (R100) -/

/-- A slot on whose line a millisecond has passed: a frame whose last byte falls into it has ended (log 10). -/
theorem lineStep_eq (x : Slot) :
    x.lineStep =
      if x.tx.left = 0 then x else if x.tx.left = 1 then x.frameEnded else { x with tx := { x.tx with left := x.tx.left - 1 } } := by
  unfold Slot.lineStep
  split
  · next h => rw [if_pos h]
  · next h => rw [if_neg (by omega), if_pos h]
  · next n h => rw [if_neg (by omega), if_neg (by omega), h]; rfl

theorem step_idle (h : s.pending = []) : step s = .next s.tick := by
  rw [step, h]

/-- Settles O2: what is owed holds the count; else every slot passes one millisecond. -/
theorem idleStepMovesTheTimeBase : Obligations.IdleStepMovesTheTimeBase := by
  intro s hpending
  refine ⟨fun howes => ?_, fun howes => ?_⟩
  · rw [step_idle hpending, State.tick, if_pos howes]
  · refine ⟨s.tick, step_idle hpending, ?_, tick_keeps s, fun i => ?_⟩
    · rw [State.tick, if_neg (by simp [howes])]
      exact (modSlots_keeps _ _).time (by decide)
    · rw [State.tick, if_neg (by simp [howes]), slot_modSlots, lineStep_eq]
      rfl

/-! ### Timers of one slot -/

/-- A command that changes one slot, and nothing else. -/
theorem exec_modSlot {c : Instr} {f : Slot → Slot} {y : Slot} (hc : exec c s = .next (s.modSlot i f)) (hy : f (s.slot i) = y) :
    ∃ t, exec c s = .next t ∧ keepsBut [.slots] s t ∧ slotsBut (· = i) s t ∧ t.slot i = y :=
  ⟨_, hc, modSlot_keeps s i f, fun _ hj => State.slot_modSlot_ne s f hj, (State.slot_modSlot_same s i f).trans hy⟩

theorem settleTimer_taken (hst : (s.slot i).state = .powering) (hd : dueSome s.now (s.slot i).settle = true) :
    exec (.settleTimerExpiry i) s = .next (s.enterBooting i) := by
  change execSettleTimerExpiry i s = _
  simp only [execSettleTimerExpiry, hst, hd, decide_true, Bool.and_self, if_true]

theorem offTimer_taken (hst : (s.slot i).state = .recovering) (hd : dueSome s.now (s.slot i).offTimer = true) :
    exec (.recoveryOffTimerExpiry i) s = .next (s.enterPowering i) := by
  change execRecoveryOffTimerExpiry i s = _
  simp only [execRecoveryOffTimerExpiry, hst, hd, decide_true, Bool.and_self, if_true]

/-- Settles O45: each of the four timers changes its own slot alone. -/
theorem timersMoveTheSlot : Obligations.TimersMoveTheSlot := by
  intro i s x
  refine ⟨fun hst hd => ?_, fun hst hd => ?_, fun hd => ?_, fun hd => ?_⟩
  · refine exec_modSlot (settleTimer_taken hst hd) ?_
    have hkey : (if x.profile.keyPress = 0 then x.power else { x.power with key := some ⟨s.now, x.profile.keyPress⟩ }) =
        { x.power with key := if x.profile.keyPress = 0 then x.power.key else some ⟨s.now, x.profile.keyPress⟩ } := by
      split <;> rfl
    rw [← hkey]
  · exact exec_modSlot (offTimer_taken hst hd) rfl
  · exact exec_modSlot (congrArg Host.Outcome.next (if_pos hd)) rfl
  · exact exec_modSlot (congrArg Host.Outcome.next (if_pos hd)) rfl

end Sys2Proof.Machine.TimeBase
end

section
/-! PROOF. The placement of the slots and the evaluation of presence (1.7), and from them the power-on reset and the effects of
a RESTART (10.4). -/

namespace Sys2Proof.Machine.Placement

open Tables FanOut PowerBlock SlotActs

variable {s t u : State} {i j : SlotId}

/-! ### Presence taken (R4, R5, R182) -/

/-- A seated slot taken as an ATTACH: its event is raised, and in VACANT it is handled by R4. -/
def attached (x : Slot) (expected : Option Byte) (now : Count) (mask : BitVec 8) : Slot :=
  let y := x.raised .attach mask
  if x.state = .vacant then
    if x.faultRecord.isSome then { y with state := .fault, faultPeriod := none } else y.admitted expected now mask
  else y

theorem slot_takeAttach (s : State) (i : SlotId) :
    (s.takeAttach i).slot i = attached (s.slot i) (s.expectedCode i) s.now s.noticeMask := by
  have hk := raise_keeps s i .attach
  have hslot : (s.raise i .attach).slot i = (s.slot i).raised .attach s.noticeMask := by rw [slot_raise, if_pos rfl]
  have hcode : (s.raise i .attach).expectedCode i = s.expectedCode i := by
    rw [State.expectedCode, hk .fixture (by decide)]; rfl
  have hnow : (s.raise i .attach).now = s.now := hk.time (by decide)
  have hmask : (s.raise i .attach).noticeMask = s.noticeMask := hk .mask (by decide)
  unfold State.takeAttach attached
  dsimp only
  by_cases hst : (s.slot i).state = .vacant
  · rw [if_pos hst, if_pos hst]
    unfold State.attachVacant
    rw [hslot]
    by_cases hr : (s.slot i).faultRecord.isSome = true
    · rw [if_pos hr, if_pos (show ((s.slot i).raised .attach s.noticeMask).faultRecord.isSome = true from hr),
        State.slot_modSlot_same, hslot]
    · rw [if_neg hr, if_neg (show ¬ ((s.slot i).raised .attach s.noticeMask).faultRecord.isSome = true from hr),
        slot_admitSeated (by rw [hslot]; exact Option.not_isSome_iff_eq_none.mp hr), if_pos rfl, hslot, hcode, hnow, hmask]
  · rw [if_neg hst, if_neg hst, hslot]

theorem takeAttach_acts (s : State) (i : SlotId) : Acts s (s.takeAttach i) [i] none := by
  unfold State.takeAttach
  dsimp only
  split
  · exact (Acts.raise s i .attach).before (Acts.attachVacant _ i)
  · exact Acts.raise s i .attach

theorem takeAttach_keeps (s : State) (i : SlotId) : keepsBut [.uplink, .slots] s (s.takeAttach i) := by
  unfold State.takeAttach
  dsimp only
  split
  · exact (raise_keeps s i .attach).trans (attachVacant_keeps _ i)
  · exact raise_keeps s i .attach

/-- The evaluation of presence is an ATTACH taken, where the present flag is set (R29, R182). -/
theorem evaluatePresence_eq (s : State) (i : SlotId) :
    s.evaluatePresence i = if (s.slot i).present then s.takeAttach i else s := rfl

/-! ### The slots placed, and their presence evaluated (R29, R182) -/

/-- A slot that has been placed: INHIBITED raises INHIBIT. -/
def placed (x : Slot) (mask : BitVec 8) : Slot := if x.state = .inhibited then x.raised .inhibit mask else x

/-- A slot whose presence has been evaluated. -/
def evaluated (x : Slot) (expected : Option Byte) (now : Count) (mask : BitVec 8) : Slot :=
  if x.present then attached x expected now mask else x

theorem expectedCode_congr (hk : keepsBut [.port, .uplink, .images, .slots] s t) (i : SlotId) :
    t.expectedCode i = s.expectedCode i := by
  rw [State.expectedCode, hk .fixture (by decide)]; rfl

theorem raisePlaced_actsBy : ActsBy State.raisePlaced (fun s _ x => placed x s.noticeMask) fun _ => false where
  acts s i := by
    unfold State.raisePlaced
    split
    · exact Acts.raise s i .inhibit
    · exact .refl s [i]
  slot s i := by
    unfold State.raisePlaced placed
    split
    · rw [slot_raise, if_pos rfl]
    · rfl
  env s t i x hk := by rw [hk .mask (by decide)]
  images s i := releases_of_images (raisePlaced_keeps s i .images (by decide)) (by simp)

theorem evaluatePresence_actsBy : ActsBy State.evaluatePresence
    (fun s i x => evaluated x (s.expectedCode i) s.now s.noticeMask) fun _ => false where
  acts s i := by
    rw [evaluatePresence_eq]
    split
    · exact takeAttach_acts s i
    · exact .refl s [i]
  slot s i := by
    rw [evaluatePresence_eq]
    unfold evaluated
    split
    · exact slot_takeAttach s i
    · rfl
  env s t i x hk := by rw [hk .mask (by decide), hk.time (by decide), expectedCode_congr hk]
  images s i := releases_of_images (evaluatePresence_keeps s i .images (by decide)) (by simp)

/-- A slot after the placement and the evaluation. -/
def settled (s : State) (i : SlotId) (x : Slot) : Slot :=
  evaluated (placed x s.noticeMask) (s.expectedCode i) s.now s.noticeMask

theorem slot_placeSlots (s : State) (j : SlotId) : s.placeSlots.slot j = settled s j (s.slot j) := by
  have hacts := (raisePlaced_actsBy.foldl (List.nodup_finRange 24) s).1
  have hplaced := raisePlaced_actsBy.slot_foldl (List.nodup_finRange 24) s j
  rw [if_pos (List.mem_finRange j)] at hplaced
  rw [State.placeSlots, evaluatePresence_actsBy.slot_foldl (List.nodup_finRange 24), if_pos (List.mem_finRange j), hplaced,
    expectedCode_congr hacts.keeps, hacts.keeps.time (by decide), hacts.keeps .mask (by decide)]
  rfl

/-- The notices of the placement, and then those of the evaluation (log 30). -/
theorem placeSlots_uplink (s : State) :
    s.placeSlots.uplink =
      { s.uplink with
        notices :=
          s.uplink.notices ++
              (List.finRange 24).filter (fun i => !(s.slot i).noticeWaiting && (placed (s.slot i) s.noticeMask).noticeWaiting) ++
            (List.finRange 24).filter fun i =>
              !(placed (s.slot i) s.noticeMask).noticeWaiting && (settled s i (s.slot i)).noticeWaiting } := by
  have h1 := raisePlaced_actsBy.silent_foldl (List.nodup_finRange 24) s
  have h2 : Acts ((List.finRange 24).foldl State.raisePlaced s) s.placeSlots (List.finRange 24) none :=
    evaluatePresence_actsBy.silent_foldl (List.nodup_finRange 24) _
  have hplaced (j : SlotId) : ((List.finRange 24).foldl State.raisePlaced s).slot j = placed (s.slot j) s.noticeMask := by
    rw [raisePlaced_actsBy.slot_foldl (List.nodup_finRange 24), if_pos (List.mem_finRange j)]
  have hn1 : (_ : State).uplink.notices = _ := h1.notices
  have hn2 : s.placeSlots.uplink.notices = _ := h2.notices
  rw [h2.silent rfl, hn2, hn1, h1.silent rfl]
  simp only [hplaced, slot_placeSlots]

/-! ### Slots at their power-on values -/

theorem fitted_iff (p : Straps) (i : SlotId) : p.fitted i = (p.banksTwo || decide (i.val < 12)) := by
  unfold Straps.fitted Straps.fittedSet
  cases p.banksTwo <;> revert i <;> decide

theorem drawerOpen_eq (s : State) (i : SlotId) :
    s.drawerOpen i = if i.val < 12 then s.interlockA.taken else s.interlockB.taken := by
  unfold State.drawerOpen bankOf
  split <;> rfl

/-! ### The power-on reset (R29, R191, R194) -/

/-- A slot at a power-on reset, placed, with the present flag clear. -/
theorem settled_atPowerOn (hmask : s.noticeMask = 0xFF) (x : Slot) (fitted isOpen : Bool) (ceiling : Nat) :
    settled s i (x.atPowerOn fitted isOpen ceiling) =
      { Slot.initial (if !fitted then .unfitted else if isOpen then .inhibited else .vacant) ceiling x.contact x.nestLines with
        debounce := if fitted && x.contact then some ⟨0, 50⟩ else none
        pendingEvents := if fitted && isOpen then 0x80 else 0
        noticeWaiting := fitted && isOpen } := by
  unfold settled
  rw [hmask]
  cases fitted with
  | false => rfl
  | true =>
    cases hc : x.contact <;> cases isOpen <;>
      simp [Slot.atPowerOn, placedState, Slot.startDebounce, Slot.initial, placed, evaluated, Slot.raised, hasEvent,
        EventKind.bit, hc, Config.debounceMs]

theorem placed_atPowerOn_noticeWaiting (x : Slot) (fitted isOpen : Bool) (ceiling : Nat) :
    (x.atPowerOn fitted isOpen ceiling).noticeWaiting = false ∧
      (placed (x.atPowerOn fitted isOpen ceiling) 0xFF).noticeWaiting = (fitted && isOpen) := by
  cases fitted <;> cases isOpen <;>
    simp [Slot.atPowerOn, placedState, Slot.startDebounce, Slot.initial, placed, Slot.raised, hasEvent, EventKind.bit]

section
variable (s : State) (banksHigh ceilingHigh : Bool)

/-- The state at a power-on reset, before the slots are placed. -/
def unplaced : State :=
  (s.blank banksHigh ceilingHigh).modSlots fun i x =>
    x.atPowerOn ((s.blank banksHigh ceilingHigh).straps.fitted i) ((s.blank banksHigh ceilingHigh).drawerOpen i)
      (s.blank banksHigh ceilingHigh).straps.ceiling

theorem unplaced_keeps : keepsBut [.slots] (s.blank banksHigh ceilingHigh) (unplaced s banksHigh ceilingHigh) :=
  modSlots_keeps _ _

theorem powerUp_keeps : keepsBut [.uplink, .slots] (s.blank banksHigh ceilingHigh) (s.powerUp banksHigh ceilingHigh) :=
  ((unplaced_keeps s banksHigh ceilingHigh).mono (by decide)).trans (placeSlots_keeps _)

theorem unplaced_mask : (unplaced s banksHigh ceilingHigh).noticeMask = 0xFF :=
  unplaced_keeps s banksHigh ceilingHigh .mask (by decide)

theorem blank_drawerOpen (i : SlotId) :
    ((s.blank banksHigh ceilingHigh).drawerOpen i) =
      if i.val < 12 then s.interlockA.input else (banksHigh && s.interlockB.input) := by
  rw [drawerOpen_eq]
  rfl

theorem slot_unplaced (i : SlotId) :
    (unplaced s banksHigh ceilingHigh).slot i =
      (s.slot i).atPowerOn (banksHigh || decide (i.val < 12))
        (if i.val < 12 then s.interlockA.input else (banksHigh && s.interlockB.input)) (if ceilingHigh then 4 else 3) := by
  rw [unplaced, slot_modSlots, fitted_iff, blank_drawerOpen]
  rfl

/-- On a fitted slot the drawer is its bank's input. -/
theorem fitted_and_open (i : SlotId) :
    ((banksHigh || decide (i.val < 12)) && if i.val < 12 then s.interlockA.input else (banksHigh && s.interlockB.input)) =
      ((banksHigh || decide (i.val < 12)) && if i.val < 12 then s.interlockA.input else s.interlockB.input) := by
  by_cases hi : i.val < 12
  · simp [hi]
  · cases banksHigh <;> simp [hi]

theorem slot_powerUp (i : SlotId) :
    let isFitted := banksHigh || decide (i.val < 12)
    let isOpen := if i.val < 12 then s.interlockA.input else (banksHigh && s.interlockB.input)
    (s.powerUp banksHigh ceilingHigh).slot i =
      { Slot.initial (if !isFitted then .unfitted else if isOpen then .inhibited else .vacant) (if ceilingHigh then 4 else 3)
          (s.slot i).contact (s.slot i).nestLines with
        debounce := if isFitted && (s.slot i).contact then some ⟨0, 50⟩ else none
        pendingEvents := if isFitted && isOpen then 0x80 else 0
        noticeWaiting := isFitted && isOpen } := by
  change (unplaced s banksHigh ceilingHigh).placeSlots.slot i = _
  rw [slot_placeSlots, slot_unplaced, settled_atPowerOn (unplaced_mask s banksHigh ceilingHigh)]

/-- The notices of a power-on reset are those of the slots placed in INHIBITED (R182). -/
theorem powerUp_uplink :
    (s.powerUp banksHigh ceilingHigh).uplink =
      { Uplink.empty with
        notices := (List.finRange 24).filter fun i =>
          (banksHigh || decide (i.val < 12)) && if i.val < 12 then s.interlockA.input else s.interlockB.input } := by
  have hslot (i : SlotId) : (settled (unplaced s banksHigh ceilingHigh) i
      ((unplaced s banksHigh ceilingHigh).slot i)).noticeWaiting =
        (placed ((unplaced s banksHigh ceilingHigh).slot i) 0xFF).noticeWaiting := by
    rw [slot_unplaced, settled_atPowerOn (unplaced_mask s banksHigh ceilingHigh), (placed_atPowerOn_noticeWaiting ..).2]
  have hu : (unplaced s banksHigh ceilingHigh).uplink = Uplink.empty :=
    unplaced_keeps s banksHigh ceilingHigh .uplink (by decide)
  change (unplaced s banksHigh ceilingHigh).placeSlots.uplink = _
  rw [placeSlots_uplink, hu]
  simp only [hslot, unplaced_mask, Bool.not_and_self, List.filter_false, List.append_nil]
  simp only [slot_unplaced, placed_atPowerOn_noticeWaiting, fitted_and_open, Bool.not_false, Bool.true_and]
  rfl

end

/-- Settles O5: every block but the slots and the notices stands in `State.blank`; the slots are placed by their drawers. -/
theorem powerOnResetPlacesEverySlot : Obligations.PowerOnResetPlacesEverySlot := by
  intro s banksHigh ceilingHigh
  have hk := powerUp_keeps s banksHigh ceilingHigh
  obtain ⟨hjobs, hblocks⟩ := hk .jobs (by decide)
  obtain ⟨hpointer, hgranted, halone⟩ := hk .arbiter (by decide)
  obtain ⟨ha, hb⟩ := hk .interlocks (by decide)
  refine ⟨s.powerUp banksHigh ceilingHigh, rfl, hk .queue (by decide), hk .time (by decide), hk .straps (by decide),
    hk .port (by decide), hk .groups (by decide), hk .fixture (by decide), hk .operations (by decide), hk .images (by decide),
    hjobs, hblocks, hpointer, hgranted, halone, hk .mask (by decide), ha, hb, powerUp_uplink s banksHigh ceilingHigh,
    fun i => ?_⟩
  intro isFitted isOpen
  rw [slot_powerUp]
  by_cases hi : i.val < 12
  · simp [isFitted, isOpen, hi]
  · cases banksHigh <;> simp [isFitted, isOpen, hi]

end Sys2Proof.Machine.Placement
end

section
/-! PROOF. RESTART and what it returns the device to (10.4). -/

namespace Sys2Proof.Machine.Restarting

open Tables FanOut PowerBlock SlotActs Placement

variable {s t u : State} {i j : SlotId}

/-! ### The effects of a RESTART (R193) -/

/-- The parts that a RESTART returns to their power-on values. -/
abbrev restartParts : List Part :=
  [.port, .uplink, .groups, .fixture, .operations, .images, .jobs, .arbiter, .interlocks, .mask, .slots]

theorem sweep_keeps (s : State) : keepsBut restartParts s s.sweep := by
  intro p hp
  cases p with
  | store => exact ⟨rfl, rfl⟩
  | queue | time | straps => rfl
  | _ => exact absurd (by decide) hp

theorem endHold_keeps (s : State) : keepsBut [.port] s s.endHold := withPort_keeps s _

/-- The state of a RESTART before the slots are placed. -/
def unplacedRestart (s : State) : State :=
  s.sweep.modSlots fun i x => x.atRestart (s.straps.fitted i) (s.drawerOpen i) s.straps.ceiling s.now

theorem unplacedRestart_keeps (s : State) : keepsBut [.slots] s.sweep (unplacedRestart s) := modSlots_keeps _ _

theorem restartEffects_eq (s : State) : s.restartEffects = (unplacedRestart s).placeSlots.endHold := by
  rw [State.restartEffects, State.restartSlots, unplacedRestart]

theorem slot_endHold (s : State) (i : SlotId) : s.endHold.slot i = s.slot i := rfl

theorem endHold_uplink (s : State) : s.endHold.uplink = s.uplink := rfl

theorem endHold_port (s : State) : s.endHold.port = { s.port with intakeHold := false } := rfl

/-- After the sweep, a RESTART changes the slots, their notices and the intake hold. -/
theorem restartEffects_keeps (s : State) : keepsBut [.port, .uplink, .slots] s.sweep s.restartEffects :=
  restartEffects_eq s ▸
    (((unplacedRestart_keeps s).mono (by decide)).step (placeSlots_keeps _) (by decide)).step (endHold_keeps _) (by decide)

/-- A slot after a RESTART (R3, R29, R182, R193). -/
def restarted (x : Slot) (isFitted isOpen : Bool) (ceiling : Nat) (now : Count) : Slot :=
  let base := fun st => Slot.initial st ceiling x.contact x.nestLines
  let debounce : Option Timer := if x.contact = x.present then none else some ⟨now, 50⟩
  if isFitted = false then base .unfitted
  else if isOpen then
    { base .inhibited with
      present := x.present, debounce := debounce, noticeWaiting := true
      pendingEvents := if x.present then 0x81 else 0x80 }
  else if x.present then
    { base .powering with
      present := true, debounce := debounce, noticeWaiting := true, pendingEvents := 0x01
      restartCause := .host, settle := some ⟨now, 50⟩
      power :=
        { PowerRecord.initial with
          vbus := true, periodStart := some now, blanking := some ⟨now, 50⟩, blankLength := 50, period := 1 } }
  else { base .vacant with debounce := debounce }

theorem settled_atRestart (hmask : s.noticeMask = 0xFF) (hfixture : s.fixture = none) (x : Slot)
    (isFitted isOpen : Bool) (ceiling : Nat) :
    settled s i (x.atRestart isFitted isOpen ceiling s.now) = restarted x isFitted isOpen ceiling s.now := by
  have hcode : s.expectedCode i = none := by rw [State.expectedCode, hfixture]; rfl
  unfold settled
  rw [hmask, hcode]
  cases isFitted with
  | false => rfl
  | true =>
    cases hp : x.present <;> cases isOpen <;>
      simp [Slot.atRestart, placedState, Slot.startDebounce, Slot.initial, placed, evaluated, attached, Slot.raised, hasEvent,
        EventKind.bit, Slot.admitted, Slot.nestRead, Slot.nestFails, Slot.poweredUp, Profile.default, PowerRecord.initial,
        restarted, hp, Config.debounceMs]

/-- The notices of the placement wait for the fitted slots whose drawer is open. -/
theorem placed_atRestart_noticeWaiting (x : Slot) (isFitted isOpen : Bool) (ceiling : Nat) (now : Count) :
    (x.atRestart isFitted isOpen ceiling now).noticeWaiting = false ∧
      (placed (x.atRestart isFitted isOpen ceiling now) 0xFF).noticeWaiting = (isFitted && isOpen) := by
  cases isFitted <;> cases isOpen <;>
    simp [Slot.atRestart, placedState, Slot.startDebounce, Slot.initial, placed, Slot.raised, hasEvent, EventKind.bit]

theorem restarted_noticeWaiting (x : Slot) (isFitted isOpen : Bool) (ceiling : Nat) (now : Count) :
    (!(isFitted && isOpen) && (restarted x isFitted isOpen ceiling now).noticeWaiting) =
      (isFitted && !isOpen && x.present) := by
  cases isFitted <;> cases isOpen <;> cases hp : x.present <;> simp [restarted, hp, Slot.initial]

section
variable (s : State)

theorem unplacedRestart_mask : (unplacedRestart s).noticeMask = 0xFF := unplacedRestart_keeps s .mask (by decide)

theorem unplacedRestart_fixture : (unplacedRestart s).fixture = none := unplacedRestart_keeps s .fixture (by decide)

theorem unplacedRestart_now : (unplacedRestart s).now = s.now := (unplacedRestart_keeps s).time (by decide)

theorem slot_unplacedRestart (i : SlotId) :
    (unplacedRestart s).slot i =
      (s.slot i).atRestart (s.straps.fitted i) (s.drawerOpen i) s.straps.ceiling s.now := slot_modSlots _ _ _

theorem settled_unplacedRestart (i : SlotId) :
    settled (unplacedRestart s) i ((unplacedRestart s).slot i) =
      restarted (s.slot i) (s.straps.fitted i) (s.drawerOpen i) s.straps.ceiling s.now := by
  rw [slot_unplacedRestart, ← unplacedRestart_now, settled_atRestart (unplacedRestart_mask s) (unplacedRestart_fixture s)]

theorem slot_restartEffects (i : SlotId) :
    s.restartEffects.slot i = restarted (s.slot i) (s.straps.fitted i) (s.drawerOpen i) s.straps.ceiling s.now := by
  rw [restartEffects_eq, slot_endHold, slot_placeSlots, settled_unplacedRestart]

theorem restartEffects_uplink :
    s.restartEffects.uplink =
      { s.uplink with
        gathers := [], bridgeOuts := []
        notices :=
          (List.finRange 24).filter (fun i => s.straps.fitted i && s.drawerOpen i) ++
            (List.finRange 24).filter fun i => s.straps.fitted i && !s.drawerOpen i && (s.slot i).present } := by
  have hu : (unplacedRestart s).uplink = { s.uplink with gathers := [], bridgeOuts := [], notices := [] } :=
    unplacedRestart_keeps s .uplink (by decide)
  rw [restartEffects_eq, endHold_uplink, placeSlots_uplink, hu]
  simp only [settled_unplacedRestart, unplacedRestart_mask]
  simp only [slot_unplacedRestart, placed_atRestart_noticeWaiting, restarted_noticeWaiting, Bool.not_false, Bool.true_and,
    List.nil_append]

theorem restartEffects_port : s.restartEffects.port = { s.port with intakeHold := false } := by
  have hport : (unplacedRestart s).placeSlots.port = s.port :=
    (placeSlots_keeps _ .port (by decide)).trans (unplacedRestart_keeps s .port (by decide))
  rw [restartEffects_eq, endHold_port, hport]

end

theorem image_sweep (s : State) (k : ImageId) :
    s.sweep.image k =
      if (s.image k).state = .ready ∨ (s.image k).state = .damaged then
        { s.image k with fields := { (s.image k).fields with references := 0 } }
      else ⟨.free, (s.image k).generation, ImageFields.absent⟩ := by
  have hmap : s.sweep.image k = (s.image k).atRestart := Vector.getElem_map _ k.isLt
  rw [hmap, Image.atRestart]
  cases hst : (s.image k).state <;> simp [hst]

/-! ### RESTART -/

/-- The state in which a RESTART's effects are made: its receipt has left the uplink. -/
def receiptGone (s : State) (rest : List Receipt) : State := { s with uplink := { s.uplink.freed with receipts := rest } }

theorem receiptSent_restarts {r : Receipt} {rest : List Receipt} (hs : s.uplink.sends .receipt = true)
    (hr : s.uplink.receipts = r :: rest) (hkind : r.kind = 0x02) (hresult : r.result = .accepted)
    (hhold : s.port.intakeHold = true) :
    exec .receiptSent s = .next (receiptGone s rest).restartEffects.arbitrate := by
  have hends : r.endsRestart s.port = true := by simp [Receipt.endsRestart, codeRestart, hkind, hresult, hhold]
  change execReceiptSent s = _
  simp only [execReceiptSent, hs, hr, hends, if_true]
  rfl

theorem restart_taken (h : s.intakeOpen = true) {tag : Tag} :
    exec (.restart tag (.shaped ())) s =
      .next (State.answer { s with port := { s.port with intakeHold := true } } tag codeRestart .accepted) := by
  change execRestart tag (.shaped ()) s = _
  rw [execRestart, requestWith_shaped h]

/-- An interlock's settling timer starts anew while its input differs (R7). -/
theorem atRestart_eq (l : Interlock) (now : Count) (fitted : Bool) :
    l.atRestart now fitted =
      { l with settling := if fitted then if l.input = l.taken then none else some ⟨now, 10⟩ else none } := by
  unfold Interlock.atRestart
  cases fitted with
  | false => simp
  | true => by_cases h : l.input = l.taken <;> simp [h, Config.interlockMs]

theorem keptGrant_eq (g : Option Grant) :
    keptGrant g =
      match g with
      | some (.reader i k block) => some (.reader i k block)
      | _ => none := rfl

/-- Settles O9: RESTART waits for its receipt; then the sweep sets every block, and the slots are placed and their presence
evaluated. -/
theorem restartReturnsToPowerOnValues : Obligations.RestartReturnsToPowerOnValues := by
  refine ⟨fun tag s h => ?_, fun s r rest hs hr hkind hresult hhold => ?_⟩
  · have hk := answer_keeps { s with port := { s.port with intakeHold := true } } tag codeRestart .accepted 0 .none
    refine ⟨_, restart_taken h, ?_, hk .port (by decide),
      ((withPort_keeps s _).mono (by decide)).step hk (by decide)⟩
    exact answer_receiptJoins (s := { s with port := { s.port with intakeHold := true } }) 
      (configured_of_intakeOpen (s := s) h)
  · set v := receiptGone s rest with hv
    have hsweep : keepsBut restartParts s v.sweep := ((withUplink_keeps s _).mono (by decide)).step (sweep_keeps v) (by decide)
    have hk : keepsBut [.port, .uplink, .slots] v.sweep v.restartEffects.arbitrate :=
      (restartEffects_keeps v).step (arbitrate_keeps _) (by decide)
    obtain ⟨hreceipts, hgathers, hbridge, hnotices, -⟩ := arbitrate_classes v.restartEffects
    have hu := restartEffects_uplink v
    obtain ⟨hjobs, hblocks⟩ := hk .jobs (by decide)
    obtain ⟨hpointer, hgranted, halone⟩ := hk .arbiter (by decide)
    obtain ⟨ha, hb⟩ := hk .interlocks (by decide)
    have hport : v.restartEffects.arbitrate.port = v.restartEffects.port := arbitrate_keeps _ .port (by decide)
    rw [restartEffects_port] at hport
    have himages : v.restartEffects.arbitrate.images = v.sweep.images := hk .images (by decide)
    rw [hu] at hreceipts hgathers hbridge hnotices
    refine ⟨v.restartEffects.arbitrate, receiptSent_restarts hs hr hkind hresult hhold, hsweep.step hk (by decide),
      hport, hk .operations (by decide),
      hk .groups (by decide), hk .fixture (by decide), hjobs, hblocks, halone, hpointer, hk .mask (by decide), ?_,
      ⟨ha.trans (atRestart_eq s.interlockA s.now true), hb.trans (atRestart_eq s.interlockB s.now s.straps.banksTwo)⟩,
      hreceipts, hgathers, hbridge, hnotices, fun k => ?_, fun i => ?_⟩
    · rw [hgranted]
      exact keptGrant_eq s.granted
    · have himage : v.restartEffects.arbitrate.image k = v.sweep.image k := by simp only [State.image, himages]
      rw [himage]
      exact image_sweep v k
    · rw [slot_arbitrate]
      exact slot_restartEffects v i

end Sys2Proof.Machine.Restarting
end

section
/-! PROOF. Presence (1.2), the interlocks (1.3) and the silence that leads to the recovery decision (1.4.1). -/

namespace Sys2Proof.Machine.Inputs

open Tables FanOut PowerBlock SlotActs Placement TimeBase

variable {s t u : State} {i j : SlotId}

/-! ### Commands of one slot that stop it or not -/

theorem onlySlot_of_silent (h : Acts s t [i] none) : onlySlot s t i :=
  ⟨h.keeps, h.slotsBut_one, fun _ => ⟨h.port, h.onlyNotices⟩⟩

/-! ### Presence (R3 to R6) -/

/-- Settled by R5 or R6: the slots a DETACH leaves where they are. -/
theorem takeDetach_eq (s : State) (i : SlotId) :
    s.takeDetach i =
      if (s.slot i).state ≠ .vacant ∧ (s.slot i).state ≠ .inhibited then (s.raise i .detach).stopSlot i .detached .vacant
      else s.raise i .detach := by
  unfold State.takeDetach
  cases (s.slot i).state <;> simp

theorem presenceDebounce_taken (hf : s.straps.fitted i = true) (hd : dueSome s.now (s.slot i).debounce = true)
    (hne : (s.slot i).contact ≠ (s.slot i).present) :
    exec (.presenceDebounceExpiry i) s =
      .next
        (if (s.slot i).contact then
          (s.modSlot i fun x => { x with present := x.contact, debounce := none }).takeAttach i
        else (s.modSlot i fun x => { x with present := x.contact, debounce := none }).takeDetach i) := by
  change execPresenceDebounceExpiry i s = _
  simp only [execPresenceDebounceExpiry, hf, hd, hne, Bool.and_self, if_true, if_false]

/-- Settles O43: the contact's change, the ATTACH, the DETACH of a slot that stops and of one that does not. -/
theorem presenceIsDebounced : Obligations.PresenceIsDebounced := by
  intro i s x
  refine ⟨fun seated lines => ?_, fun hf hd hne => ⟨fun hc => ?_, fun hc => ?_⟩⟩
  · refine exec_modSlot rfl ?_
    have hstart : (if (!s.straps.fitted i || decide (seated = x.present)) = true then none
        else if x.debounce.isSome = true then x.debounce else some ⟨s.now, Config.debounceMs⟩) =
        if s.straps.fitted i = false ∨ seated = x.present then none
        else if x.debounce = none then some ⟨s.now, 50⟩ else x.debounce := by
      have htest : (!s.straps.fitted i || decide (seated = x.present)) = true ↔
          s.straps.fitted i = false ∨ seated = x.present := by simp
      simp only [htest]
      cases x.debounce <;> rfl
    rw [← hstart]
  · intro y
    have hexec := presenceDebounce_taken hf hd hne
    rw [if_pos hc] at hexec
    set u := s.modSlot i fun x => { x with present := x.contact, debounce := none } with hu
    have hslot : u.slot i = { x with present := true, debounce := none } := by rw [hu, State.slot_modSlot_same, hc]
    have hacts : Acts s (u.takeAttach i) [i] none := (Acts.modSlot s i rfl).before (takeAttach_acts u i)
    refine ⟨_, hexec, ((modSlot_keeps s i _).mono (by decide)).trans (takeAttach_keeps u i), hacts.slotsBut_one,
      hacts.onlyNotices, ?_⟩
    rw [slot_takeAttach, hslot]
    rfl
  · intro y stops
    have hexec := presenceDebounce_taken hf hd hne
    rw [if_neg (by simpa using hc), takeDetach_eq] at hexec
    set u := s.modSlot i fun x => { x with present := x.contact, debounce := none } with hu
    have hslot : u.slot i = { x with present := false, debounce := none } := by rw [hu, State.slot_modSlot_same, hc]
    have hraised : (u.raise i .detach).slot i = y := by rw [slot_raise, if_pos rfl, hslot]; rfl
    have hacts : Acts s (u.raise i .detach) [i] none := (Acts.modSlot s i rfl).before (Acts.raise u i .detach)
    have himages : (u.raise i .detach).images = s.images := raise_keeps u i .detach .images (by decide)
    rw [hslot] at hexec
    by_cases hstops : stops
    · rw [if_pos hstops] at hexec
      have hstopped := hacts.before (Acts.stopSlot (u.raise i .detach) i .detached (dest := .vacant) (by decide))
      rw [refusal_congr hacts.port] at hstopped
      refine ⟨_, hexec, hstopped.onlySlot, ?_, ?_, ?_⟩
      · rw [if_pos hstops]
        exact hstopped.refusesDeferred
      · have hrel := stopSlot_releases (u.raise i .detach) i .detached .vacant
        have hholds (j : SlotId) (k : ImageId) : ((u.raise i .detach).slot j).holds k = (s.slot j).holds k := by
          by_cases hj : j = i
          · rw [hj, hraised]; rfl
          · rw [hacts.slotsBut_one j hj]
        refine releases_gone_congr (gone := (· == i)) ?_ fun j => by simp [hstops, Bool.beq_eq_decide_eq]
        simpa only [releasesReferences, State.image, himages, hholds] using hrel
      · rw [if_pos hstops, slot_stopSlot _ i .detached (by decide), if_pos rfl, hraised]
    · rw [if_neg hstops] at hexec
      refine ⟨_, hexec, onlySlot_of_silent hacts, ?_, releases_of_images himages fun j => by simp only [hstops, and_false, decide_false], ?_⟩
      · rw [if_neg hstops]
        exact ⟨hacts.port, hacts.onlyNotices⟩
      · rw [if_neg hstops, hraised]

/-! ### The interlocks (R7 to R9) -/

theorem mem_bankSlots (k : Bank) (i : SlotId) : i ∈ bankSlots k ↔ bankOf i = k := by simp [bankSlots]

theorem bankSlots_nodup (k : Bank) : (bankSlots k).Nodup := (List.nodup_finRange 24).filter _

/-- The slots that an opening drawer inhibits. -/
def inhibits (x : Slot) : Bool := x.state != .unfitted && x.state != .inhibited

theorem inhibits_iff (x : Slot) : inhibits x = true ↔ x.state ≠ .unfitted ∧ x.state ≠ .inhibited := by simp [inhibits]

theorem openDrawer_eq (s : State) (i : SlotId) :
    s.openDrawer i = if inhibits (s.slot i) then s.enterInhibited i .interlock else s := by
  unfold State.openDrawer inhibits
  cases (s.slot i).state <;> simp

theorem enterInhibited_actsBy : ActsBy (fun s i => s.enterInhibited i .interlock)
    (fun s _ x => (x.stopped .interlock .inhibited).raised .inhibit s.noticeMask) fun _ => true where
  acts s i := Acts.enterInhibited s i .interlock
  slot s i := by rw [slot_enterInhibited, if_pos rfl]
  env s t i x hk := by rw [hk .mask (by decide)]
  images s i := releases_gone_congr (enterInhibited_releases s i .interlock) (by simp)

theorem openDrawer_actsBy : ActsBy State.openDrawer
    (fun s _ x => if inhibits x then (x.stopped .interlock .inhibited).raised .inhibit s.noticeMask else x)
    fun x => inhibits x && true := by
  have hopen : State.openDrawer = fun s i => if inhibits (s.slot i) then s.enterInhibited i .interlock else s := by
    funext s i
    exact openDrawer_eq s i
  rw [hopen]
  exact enterInhibited_actsBy.when inhibits

/-- The slots that a closing drawer lets leave INHIBITED. -/
def released (x : Slot) : Bool := x.state = .inhibited && !x.disabled

theorem leaveInhibited_actsBy : ActsBy State.leaveInhibited
    (fun s i x => x.uninhibited (s.expectedCode i) s.now s.noticeMask) fun _ => false where
  acts s i := Acts.leaveInhibited s i
  slot s i := by rw [slot_leaveInhibited, if_pos rfl]
  env s t i x hk := by rw [hk .mask (by decide), hk.time (by decide), expectedCode_congr hk]
  images s i := releases_of_images (leaveInhibited_images s i) (by simp)

theorem closeDrawer_actsBy : ActsBy State.closeDrawer
    (fun s i x => if released x then x.uninhibited (s.expectedCode i) s.now s.noticeMask else x)
    fun x => released x && false :=
  leaveInhibited_actsBy.when released

/-- What a drawer's new level makes of a slot of its bank. -/
def drawerMoved (isOpen : Bool) (x : Slot) (expected : Option Byte) (now : Count) (mask : BitVec 8) : Slot :=
  if isOpen then if inhibits x then (x.stopped .interlock .inhibited).raised .inhibit mask else x
  else if released x then x.uninhibited expected now mask else x

theorem moveDrawer_actsBy (isOpen : Bool) : ActsBy (fun s i => if isOpen then s.openDrawer i else s.closeDrawer i)
    (fun s i x => drawerMoved isOpen x (s.expectedCode i) s.now s.noticeMask) fun x => isOpen && inhibits x := by
  cases isOpen with
  | true => simpa [drawerMoved] using openDrawer_actsBy
  | false => simpa [drawerMoved] using closeDrawer_actsBy

theorem interlock_setInterlock (s : State) (k l : Bank) (x : Interlock) :
    (s.setInterlock k x).interlock l = if l = k then x else s.interlock l := by
  cases k <;> cases l <;> rfl

theorem interlock_congr (ha : t.interlockA = s.interlockA) (hb : t.interlockB = s.interlockB) (k : Bank) :
    t.interlock k = s.interlock k := by
  cases k
  · exact ha
  · exact hb

theorem interlockSettle_taken {bank : Bank} (hd : dueSome s.now (s.interlock bank).settling = true) :
    exec (.interlockSettleExpiry bank) s =
      .next ((bankSlots bank).foldl (fun t i => if (s.interlock bank).input then t.openDrawer i else t.closeDrawer i)
        (s.setInterlock bank { s.interlock bank with taken := (s.interlock bank).input, settling := none })) := by
  change execInterlockSettleExpiry bank s = _
  simp only [execInterlockSettleExpiry, hd, if_true]

/-- With an OPEN_BRIDGE that waits on a slot that stops, the receipt of the list is its refusal. -/
theorem refusalOf_eq_some {stops : Slot → Bool} {l : List SlotId} {tag : Tag} {c : Option Nat} (hi : i ∈ l)
    (hst : stops (s.slot i) = true) (hp : s.port.inProgress = some (.openBridge tag i c)) :
    refusalOf s stops l = some ⟨tag, 0x15, .wrongState, 0, .none⟩ := by
  have hsome : (refusalOf s stops l).isSome = true := by
    rw [refusalOf, List.findSome?_isSome_iff]
    exact ⟨i, hi, by rw [if_pos hst, refusal_of_openBridge hp]; rfl⟩
  obtain ⟨q, hq⟩ := Option.isSome_iff_exists.mp hsome
  obtain ⟨j, -, hj⟩ := List.exists_of_findSome?_eq_some hq
  rw [hq]
  simp only [refusal, hp, Option.ite_none_right_eq_some, Option.some.injEq] at hj
  exact congrArg some hj.2.2.symm

/-- Settles O44: the level is taken first; then the slots of the bank move, one after the other. -/
theorem interlockSettles : Obligations.InterlockSettles := by
  intro bank s k
  refine ⟨fun isOpen hbank => ?_, fun hd => ?_⟩
  · have hread : s.bankRead bank = true := by
      cases bank with
      | a => rfl
      | b => exact hbank.resolve_left (by decide)
    have htest : (!s.bankRead bank || decide (isOpen = k.taken)) = true ↔ isOpen = k.taken := by simp [hread]
    refine ⟨_, rfl, setInterlock_keeps s bank _, fun other hother => ?_, ?_⟩
    · rw [interlock_setInterlock, if_neg hother]
    · rw [interlock_setInterlock, if_pos rfl]
      simp only [k] at htest ⊢
      simp only [htest]
      cases (s.interlock bank).settling <;> rfl
  · have hexec := interlockSettle_taken hd
    set u := s.setInterlock bank { s.interlock bank with taken := (s.interlock bank).input, settling := none } with hu
    have hku : keepsBut [.interlocks] s u := setInterlock_keeps s bank _
    have hport : u.port = s.port := hku .port (by decide)
    have huplink : u.uplink = s.uplink := hku .uplink (by decide)
    have himages : u.images = s.images := hku .images (by decide)
    have hslot (j : SlotId) : u.slot j = s.slot j := State.slot_setInterlock s bank _ j
    have hcode (j : SlotId) : u.expectedCode j = s.expectedCode j := by
      rw [State.expectedCode, hku .fixture (by decide)]; rfl
    obtain ⟨hacts, hmoved, hreleases⟩ := (moveDrawer_actsBy k.input).foldl (bankSlots_nodup bank) u
    set t := (bankSlots bank).foldl (fun t i => if k.input = true then t.openDrawer i else t.closeDrawer i) u with ht
    obtain ⟨ha, hb⟩ : t.interlockA = u.interlockA ∧ t.interlockB = u.interlockB := hacts.keeps .interlocks (by decide)
    have hinterlock (l : Bank) : t.interlock l = if l = bank then { k with taken := k.input, settling := none }
        else s.interlock l := by
      rw [interlock_congr ha hb, hu, interlock_setInterlock]
    refine ⟨t, hexec, (hku.mono (by decide)).trans (hacts.keeps.mono (by decide)),
      fun other hother => by rw [hinterlock, if_neg hother], by rw [hinterlock, if_pos rfl],
      fun j hj => (hacts.slots j (mt (mem_bankSlots bank j).mp hj)).trans (hslot j), ⟨fun hnone => ?_, fun i tag c hi hp => ?_, ?_⟩,
      fun i hi => ?_⟩
    · rw [refusalOf_eq_none] at hacts
      · refine ⟨hacts.port.trans hport, ?_⟩
        have hn := hacts.onlyNotices
        simpa only [onlyNotices, noticesFollow, huplink, hslot] using hn
      · intro i hi hst
        obtain ⟨hin, hinh⟩ : k.input = true ∧ inhibits (s.slot i) = true := by simpa [hslot] using hst
        obtain ⟨h1, h2⟩ := (inhibits_iff _).mp hinh
        rw [refusal_congr hport]
        exact refusal_of_not_deferred (hnone i ⟨(mem_bankSlots bank i).mp hi, hin, h1, h2⟩)
    · obtain ⟨hbank, hin, h1, h2⟩ := hi
      have hst : (k.input && inhibits (u.slot i)) = true := by
        rw [hslot, hin, (inhibits_iff _).mpr ⟨h1, h2⟩]; rfl
      rw [refusalOf_eq_some ((mem_bankSlots bank i).mpr hbank) hst (by rw [hport]; exact hp)] at hacts
      have hrefused := hacts.deferredRefused (tag := tag) rfl
      simpa only [deferredRefused, answersWithNotices, receiptQueued, noticesFollow, huplink, hport, hslot] using hrefused
    · refine releases_gone_congr (gone := fun j => decide (j ∈ bankSlots bank) && (k.input && inhibits (u.slot j))) ?_ ?_
      · simpa only [releasesReferences, State.image, himages, hslot] using hreleases
      · intro j
        rw [Bool.eq_iff_iff]
        simp [hslot, inhibits, mem_bankSlots]
    · intro x
      rw [hmoved i ((mem_bankSlots bank i).mpr hi), hslot, hcode, hku.time (by decide), hku .mask (by decide), drawerMoved]
      by_cases hin : k.input = true
      · rw [if_pos hin, if_pos hin]
        by_cases hst : x.state = .unfitted ∨ x.state = .inhibited
        · rw [if_pos hst, if_neg]
          rw [inhibits_iff]
          rcases hst with hst | hst <;> simp [x] at hst <;> simp [hst]
        · rw [if_neg hst, if_pos]
          rw [inhibits_iff]
          exact not_or.mp hst
      · rw [if_neg hin, if_neg hin]
        by_cases hst : x.state = .inhibited ∧ x.disabled = false
        · rw [if_pos hst, if_pos (by simpa [released] using hst)]
        · rw [if_neg hst, if_neg (by simpa [released] using hst)]

/-! ### Silence (R11, R53) -/

/-- What the recovery decision makes of a slot, as R13 has it. -/
theorem slot_recoveryDecision_same (s : State) (i : SlotId) (c : FaultCause) (d : Half) :
    (s.recoveryDecision i c d).slot i =
      if (s.slot i).profile.autoRecover = true ∧ (s.slot i).recoveryAttempts < 2 then
        ({ s.slot i with recoveryAttempts := (s.slot i).recoveryAttempts + 1 }.recovering .part s.now).raised .recovery
          s.noticeMask
      else (s.slot i).faulted c d s.now s.noticeMask := by
  rw [slot_recoveryDecision, if_pos rfl]
  simp only [Bool.and_eq_true, decide_eq_true_eq]

theorem recoveryDecision_releases (s : State) (i : SlotId) (c : FaultCause) (d : Half) :
    releasesReferences s (s.recoveryDecision i c d) (· == i) := by
  unfold State.recoveryDecision
  split
  · set v := s.modSlot i fun x => { x with recoveryAttempts := x.recoveryAttempts + 1 } with hv
    have hrel : releasesReferences s (v.releaseReference i) (· == i) :=
      releases_of_modSlot (f := fun x => { x with recoveryAttempts := x.recoveryAttempts + 1 }) (fun _ => rfl)
        (releaseReference_releases v i)
    exact releasesReferences_congr
      ((resolveDeferred_keeps _ i .images (by decide)).trans (raise_keeps _ i .recovery .images (by decide))) hrel
  · exact enterFault_releases s i c d

theorem allowance_taken {kind : AllowanceKind} {timer : Timer} (hst : (s.slot i).state = .booting)
    (ha : (s.slot i).allowance = some ⟨kind, timer⟩) (hd : due s.now timer = true) :
    s.allowanceEnded i kind =
      (s.modSlot i fun x => { x with allowance := none }).recoveryDecision i .noAgent (noAgentDetail timer.length) := by
  simp [State.allowanceEnded, Slot.dueAllowance, ha, hd, hst]

theorem abortWait_taken (hst : (s.slot i).state = .aborting) (hd : dueSome s.now (s.slot i).abortWait = true) :
    exec (.abortWaitExpiry i) s =
      .next (((s.releaseReference i).modSlot i fun x => { x with inFlight := none, abortWait := none }).recoveryDecision i
        .hung (s.slot i).abortedTag) := by
  change execAbortWaitExpiry i s = _
  simp only [execAbortWaitExpiry, hst, hd, decide_true, Bool.and_self, if_true]

theorem abortedTag_eq (x : Slot) : x.abortedTag = (x.inFlight.bind (·.owner)).getD 0 := by
  unfold Slot.abortedTag
  cases x.inFlight.bind (·.owner) <;> rfl

/-- After a release and the in-flight record's removal nothing is left for the recovery decision to release. -/
theorem recoveryDecision_images_of_no_stream (h : (s.slot i).stream = none) (c : FaultCause) (d : Half) :
    (s.recoveryDecision i c d).images = s.images := by
  refine images_ext fun k => ?_
  have hholds : (s.slot i).holds k = false := by simp [Slot.holds, h]
  have hrel := recoveryDecision_releases s i c d k
  rw [length_filter_one i fun j => (s.slot j).holds k, hholds] at hrel
  simpa using hrel

/-- Settles O46: each silence ends in the recovery decision of its slot. -/
theorem silenceLeadsToTheRecoveryDecision : Obligations.SilenceLeadsToTheRecoveryDecision := by
  intro i s x decided
  refine ⟨fun kind timer hst ha hd => ?_, fun hst hd => ?_⟩
  · have hexec : exec (match kind with
        | .boot => .bootAllowanceExpiry i
        | .resync => .resyncAllowanceExpiry i) s = .next (s.allowanceEnded i kind) := by
      cases kind <;> rfl
    rw [allowance_taken hst ha hd] at hexec
    set v := s.modSlot i fun x => { x with allowance := none } with hv
    have hacts : Acts s (v.recoveryDecision i .noAgent (noAgentDetail timer.length)) [i] (refusal s i) :=
      (Acts.modSlot s i rfl).before (Acts.recoveryDecision v i .noAgent _)
    refine ⟨_, ?_, hacts.onlySlot, hacts.refusesDeferred,
      releases_of_modSlot (f := fun x => { x with allowance := none }) (fun _ => rfl) (recoveryDecision_releases v i _ _), ?_⟩
    · cases kind <;> exact hexec
    · rw [slot_recoveryDecision_same, hv, State.slot_modSlot_same]
      rfl
  · have hexec := abortWait_taken hst hd
    set v := (s.releaseReference i).modSlot i fun x => { x with inFlight := none, abortWait := none } with hv
    have hslot : v.slot i = { x with inFlight := none, abortWait := none } := by
      rw [hv, State.slot_modSlot_same, slot_releaseReference, if_pos rfl]
      obtain ⟨f, hx, -, -⟩ := (s.slot i).released_with
      rw [hx]
    have hacts : Acts s v [i] none := (Acts.releaseReference s i).before (Acts.modSlot _ i rfl)
    have hall := hacts.before (Acts.recoveryDecision v i .hung (s.slot i).abortedTag)
    rw [refusal_congr hacts.port] at hall
    refine ⟨_, hexec, hall.onlySlot, hall.refusesDeferred,
      releasesReferences_congr (recoveryDecision_images_of_no_stream (by rw [hslot]; rfl) _ _) (releaseReference_releases s i),
      ?_⟩
    rw [slot_recoveryDecision_same, hslot, abortedTag_eq, hacts.keeps.time (by decide), hacts.keeps .mask (by decide)]

end Sys2Proof.Machine.Inputs
end

section
/-! PROOF. A sound slot: what its soundness consists of, field by field, and which changes of a slot keep it (chapters 1, 2,
6, 7 and 8). -/

namespace Sys2Proof.Machine.SlotSound

open Tables FanOut PowerBlock SlotActs Placement Inputs

/-! ### What is kept of a slot -/

/-- Where a slot stands: the strap CEILING, whether the slot is fitted, and whether its drawer reads open. -/
structure Place where
  ceiling : Nat
  fitted : Bool
  isOpen : Bool

/-- The fields of a slot are in their ranges. -/
structure Ranges (c : Nat) (x : Slot) : Prop where
  score : x.link.score ≤ Config.scoreMax
  rate : x.link.rate ≤ c
  target : ∀ e, x.link.exchange = some e → e.target ≤ c
  pendingCeiling : ∀ v, x.pendingCeiling = some v → v ≤ c
  attempts : x.recoveryAttempts ≤ 2
  queue : x.queue.length ≤ Config.queueDepth
  history : x.power.history.length ≤ Config.historyLimit
  samples : ∀ v ∈ x.power.history, v ≤ Config.fullScale
  budget : x.power.accumulator ≤ x.profile.tripBudget
  unpowered : x.power.vbus = false → x.power.accumulator = 0
  ring : x.ring.length ≤ Config.ringBytes
  output : ∀ b, x.bridge = some b → b.output.length ≤ Config.ringBytes
  credit : ∀ r, x.stream = some r → r.credit ≤ Config.creditLimit
  further : ∀ r, x.faultRecord = some r → r.further ≤ Config.furtherLimit
  translation : x.translation.length ≤ 8
  profile : x.profile.inRange c

/-- What a slot holds stands with its state: VBUS, the in-flight record, the stream, the exchange, the bridge record. -/
structure Works (x : Slot) : Prop where
  vbus : x.power.vbus = x.state.powered
  inFlight : x.inFlight.isSome = x.state.working
  streaming : x.state = .streaming → x.stream.isSome = true
  stream : ∀ r, x.stream = some r → x.state = .streaming ∨ (x.state = .aborting ∧ r.referenceHeld = false)
  boot : ∀ e, x.link.exchange = some e → e.purpose = .boot → x.state = .booting
  stepDown : ∀ e, x.link.exchange = some e → e.purpose = .stepDown → x.state = .ready ∨ x.state = .streaming
  bridge : x.bridge.isSome = (x.state == .bridge)

/-- The state of a slot stands with its place: UNFITTED for an absent bank, INHIBITED for an open drawer or the disable
flag. -/
structure Placed (p : Place) (x : Slot) : Prop where
  unfitted : x.state = .unfitted ↔ p.fitted = false
  inhibited : p.fitted = true → (x.state = .inhibited ↔ (p.isOpen || x.disabled) = true)

/-- A slot that is sound at its place. -/
structure SoundSlot (p : Place) (x : Slot) : Prop extends Ranges p.ceiling x, Works x, Placed p x

/-! ### States -/

/-- The states of a fitted slot that is not inhibited. -/
def inPlay (st : SlotState) : Bool := st != .unfitted && st != .inhibited

theorem inPlay_of_powered {st : SlotState} (h : st.powered = true) : inPlay st = true := by
  revert h; cases st <;> decide

theorem powered_of_framed {st : SlotState} (h : st.framed = true) : st.powered = true := by
  revert h; cases st <;> decide

theorem powered_of_working {st : SlotState} (h : st.working = true) : st.powered = true := by
  revert h; cases st <;> decide

theorem not_working {st : SlotState} (h : st.powered = false) : st.working = false := by
  revert h; cases st <;> decide

variable {p : Place} {c : Nat} {x y : Slot}

/-- A slot in play that goes to a state in play stays well placed. -/
theorem Placed.moves (h : Placed p x) (hx : inPlay x.state = true) (hy : inPlay y.state = true)
    (hd : y.disabled = x.disabled) : Placed p y := by
  simp only [inPlay, Bool.and_eq_true, bne_iff_ne] at hx hy
  obtain ⟨hx1, hx2⟩ := hx
  obtain ⟨hy1, hy2⟩ := hy
  have hf : p.fitted ≠ false := mt h.unfitted.mpr hx1
  refine ⟨⟨fun he => absurd he hy1, fun he => absurd he hf⟩, fun hfit => ?_⟩
  rw [hd, ← h.inhibited hfit]
  exact ⟨fun he => absurd he hy2, fun he => absurd he hx2⟩

theorem Placed.same (h : Placed p x) (hs : y.state = x.state) (hd : y.disabled = x.disabled) : Placed p y :=
  ⟨by rw [hs]; exact h.unfitted, fun hf => by rw [hs, hd]; exact h.inhibited hf⟩

/-- A fitted slot with no cause of inhibit stands well in any state in play. -/
theorem placed_in_play (hf : p.fitted = true) (hi : (p.isOpen || x.disabled) = false) (hx : inPlay x.state = true) :
    Placed p x := by
  simp only [inPlay, Bool.and_eq_true, bne_iff_ne] at hx
  obtain ⟨hx1, hx2⟩ := hx
  exact ⟨by simp [hf, hx1], fun _ => by simp [hi, hx2]⟩

theorem placed_inhibited (hf : p.fitted = true) (hi : (p.isOpen || x.disabled) = true) (hx : x.state = .inhibited) :
    Placed p x :=
  ⟨by simp [hf, hx], fun _ => by simp [hi, hx]⟩

/-! ### What a sound slot does not have -/

theorem Works.no_stream (h : Works x) (hs : x.state ≠ .streaming) (ha : x.state ≠ .aborting) : x.stream = none := by
  cases hr : x.stream with
  | none => rfl
  | some r =>
    rcases h.stream r hr with he | ⟨he, -⟩
    · exact absurd he hs
    · exact absurd he ha

theorem Works.no_bridge (h : Works x) (hs : x.state ≠ .bridge) : x.bridge = none := by
  have hb := h.bridge
  rwa [beq_eq_false_iff_ne.mpr hs, Option.isSome_eq_false_iff, Option.isNone_iff_eq_none] at hb

theorem Works.no_inFlight (h : Works x) (hs : x.state.working = false) : x.inFlight = none := by
  have hi := h.inFlight
  rwa [hs, Option.isSome_eq_false_iff, Option.isNone_iff_eq_none] at hi

/-- An exchange runs only in BOOTING, READY and STREAMING. -/
theorem Works.no_exchange (h : Works x) (h1 : x.state ≠ .booting) (h2 : x.state ≠ .ready) (h3 : x.state ≠ .streaming) :
    x.link.exchange = none := by
  cases he : x.link.exchange with
  | none => rfl
  | some e =>
    cases hp : e.purpose with
    | boot => exact absurd (h.boot e he hp) h1
    | stepDown =>
      rcases h.stepDown e he hp with hs | hs
      · exact absurd hs h2
      · exact absurd hs h3

/-- A slot that is not powered holds nothing of a powered one. -/
theorem Works.of_unpowered (h : Works x) (hx : x.state.powered = false) :
    x.power.vbus = false ∧ x.inFlight = none ∧ x.link.exchange = none ∧ x.bridge = none := by
  refine ⟨h.vbus.trans hx, h.no_inFlight (not_working hx), ?_, h.no_bridge fun he => ?_⟩
  · refine h.no_exchange ?_ ?_ ?_ <;> intro he <;> rw [he] at hx <;> cases hx
  · rw [he] at hx; cases hx

theorem stream_of_no_inFlight (h : x.inFlight = none) : x.stream = none := by simp [Slot.stream, h]

/-- A slot with no in-flight record, no exchange and no bridge stands well in a state that has none. -/
theorem works_of_idle (hv : x.power.vbus = x.state.powered) (hi : x.inFlight = none) (he : x.link.exchange = none)
    (hb : x.bridge = none) (hw : x.state.working = false) (hs : x.state ≠ .bridge) : Works x where
  vbus := hv
  inFlight := by rw [hi, hw]; rfl
  streaming hst := by rw [hst] at hw; cases hw
  stream r hr := by rw [stream_of_no_inFlight hi] at hr; cases hr
  boot e h := by rw [he] at h; cases h
  stepDown e h := by rw [he] at h; cases h
  bridge := by rw [hb, beq_eq_false_iff_ne.mpr hs]; rfl

/-- A slot that is not powered may go to another state that is not powered. -/
theorem Works.rests (h : Works x) (hx : x.state.powered = false) {st : SlotState} (hst : st.powered = false) :
    Works { x with state := st } := by
  obtain ⟨hv, hi, he, hb⟩ := h.of_unpowered hx
  exact works_of_idle (hv.trans hst.symm) hi he hb (not_working hst) (by rintro rfl; cases hst)

theorem Works.poweredUp (h : Works x) (hx : x.state.powered = false) (now : Count) : Works (x.poweredUp now) := by
  obtain ⟨hv, hi, he, hb⟩ := h.of_unpowered hx
  exact works_of_idle rfl hi he hb rfl (by simp [Slot.poweredUp])

theorem Ranges.poweredUp (h : Ranges c x) (now : Count) : Ranges c (x.poweredUp now) :=
  { h with
    history := Nat.zero_le _
    samples := fun _ hv => absurd hv List.not_mem_nil
    unpowered := fun hv => by cases hv }

/-! ### A slot that stops -/

theorem Ranges.stopped (h : Ranges c x) (cause : DropCause) (dest : SlotState) : Ranges c (x.stopped cause dest) :=
  { h with
    score := show 48 ≤ Config.scoreMax by decide
    rate := Nat.zero_le _
    target := fun _ he => by cases he
    pendingCeiling := fun _ hv => by cases hv
    queue := Nat.zero_le _
    budget := Nat.zero_le _
    unpowered := fun _ => rfl
    output := fun _ hb => by cases hb
    credit := fun _ hr => by cases hr
    profile := by
      obtain ⟨hrate, hrest⟩ := h.profile
      refine ⟨?_, hrest⟩
      change x.pendingCeiling.getD x.profile.rateCeiling ≤ c
      cases hv : x.pendingCeiling with
      | none => exact hrate
      | some v => exact h.pendingCeiling v hv }

theorem works_stopped (x : Slot) (cause : DropCause) {dest : SlotState} (hd : dest.powered = false) :
    Works (x.stopped cause dest) :=
  works_of_idle hd.symm rfl rfl rfl (not_working hd) (by rintro rfl; cases hd)

theorem Ranges.faulted (h : Ranges c x) (cause : FaultCause) (detail : Half) (now : Count) (mask : BitVec 8) :
    Ranges c (x.faulted cause detail now mask) := by
  have hs := h.stopped .slotFault .fault
  unfold Slot.faulted
  dsimp only
  split
  · exact { hs with }
  · exact { hs with further := fun r hr => by cases hr; exact Nat.zero_le _ }

theorem works_faulted (x : Slot) (cause : FaultCause) (detail : Half) (now : Count) (mask : BitVec 8) :
    Works (x.faulted cause detail now mask) := by
  have hs := works_stopped x .slotFault (dest := .fault) rfl
  unfold Slot.faulted
  dsimp only
  split
  · exact { hs with }
  · exact { hs with }

theorem faulted_state (x : Slot) (cause : FaultCause) (detail : Half) (now : Count) (mask : BitVec 8) :
    (x.faulted cause detail now mask).state = .fault ∧ (x.faulted cause detail now mask).disabled = x.disabled := by
  unfold Slot.faulted
  dsimp only
  split <;> exact ⟨rfl, rfl⟩

theorem Ranges.recovering (h : Ranges c x) (cause : RestartCause) (now : Count) : Ranges c (x.recovering cause now) :=
  { h.stopped .slotFault .recovering with queue := h.queue }

theorem works_recovering (x : Slot) (cause : RestartCause) (now : Count) : Works (x.recovering cause now) :=
  { works_stopped x .slotFault (dest := .recovering) rfl with }

/-- The recovery decision leaves a slot in play sound, whatever it held (R13). -/
theorem soundSlot_recoveryDecision (hr : Ranges p.ceiling x) (hp : Placed p x) (hx : inPlay x.state = true)
    (cause : FaultCause) (detail : Half) (now : Count) (mask : BitVec 8) :
    SoundSlot p
      (if x.profile.autoRecover = true ∧ x.recoveryAttempts < 2 then
        ({ x with recoveryAttempts := x.recoveryAttempts + 1 }.recovering .part now).raised .recovery mask
      else x.faulted cause detail now mask) := by
  split
  · next hlt =>
    have hr' : Ranges p.ceiling { x with recoveryAttempts := x.recoveryAttempts + 1 } := { hr with attempts := hlt.2 }
    exact { hr'.recovering .part now, works_recovering { x with recoveryAttempts := x.recoveryAttempts + 1 } .part now,
            hp.moves (y := { x.recovering .part now with recoveryAttempts := x.recoveryAttempts + 1 }) hx rfl rfl with }
  · obtain ⟨hst, hd⟩ := faulted_state x cause detail now mask
    exact { hr.faulted cause detail now mask, works_faulted x cause detail now mask, hp.moves hx (by rw [hst]; rfl) hd with }

theorem SoundSlot.faulted (h : SoundSlot p x) (hx : inPlay x.state = true) (cause : FaultCause) (detail : Half) (now : Count)
    (mask : BitVec 8) : SoundSlot p (x.faulted cause detail now mask) := by
  obtain ⟨hst, hd⟩ := faulted_state x cause detail now mask
  exact { h.toRanges.faulted cause detail now mask, works_faulted x cause detail now mask,
          h.toPlaced.moves hx (by rw [hst]; rfl) hd with }

/-- A slot in play may stop in any state in play that is not powered. -/
theorem SoundSlot.stopped (h : SoundSlot p x) (hx : inPlay x.state = true) (cause : DropCause) {dest : SlotState}
    (hd : dest.powered = false) (hp : inPlay dest = true) : SoundSlot p (x.stopped cause dest) :=
  { h.toRanges.stopped cause dest, works_stopped x cause hd, h.toPlaced.moves (y := x.stopped cause dest) hx hp rfl with }

/-! ### Nest checks, admission and the actions of SLOT_CONTROL -/

theorem SoundSlot.raised (h : SoundSlot p x) (k : EventKind) (mask : BitVec 8) : SoundSlot p (x.raised k mask) := { h with }

theorem Ranges.raised (h : Ranges c x) (k : EventKind) (mask : BitVec 8) : Ranges c (x.raised k mask) := { h with }

theorem Works.raised (h : Works x) (k : EventKind) (mask : BitVec 8) : Works (x.raised k mask) := { h with }

theorem Ranges.nestRead (h : Ranges c x) (e : Option Byte) : Ranges c (x.nestRead e) := by
  rw [nestRead_eq]; exact { h with }

theorem Works.nestRead (h : Works x) (e : Option Byte) : Works (x.nestRead e) := by
  rw [nestRead_eq]; exact { h with }

theorem nestRead_state (x : Slot) (e : Option Byte) :
    (x.nestRead e).state = x.state ∧ (x.nestRead e).disabled = x.disabled := by
  rw [nestRead_eq]; exact ⟨rfl, rfl⟩

/-- A slot that is not powered and is admitted or has its fault record back goes to a state in play, in its ranges (R4). -/
theorem admitted_sound (hr : Ranges c x) (hw : Works x) (hx : x.state.powered = false) (e : Option Byte) (now : Count)
    (mask : BitVec 8) :
    Ranges c (x.admitted e now mask) ∧ Works (x.admitted e now mask) ∧ inPlay (x.admitted e now mask).state = true ∧
      (x.admitted e now mask).disabled = x.disabled := by
  have hr' := hr.nestRead e
  have hw' := hw.nestRead e
  obtain ⟨hs, hd⟩ := nestRead_state x e
  have hx' : (x.nestRead e).state.powered = false := by rw [hs]; exact hx
  unfold Slot.admitted
  dsimp only
  split
  · have hrest := hw'.rests hx' (st := .fault) rfl
    exact ⟨{ hr' with further := fun r h => by cases h; exact Nat.zero_le _ }, { hrest with }, rfl, hd⟩
  · split
    · have hr2 : Ranges c { x.nestRead e with restartCause := .host } := { hr' with }
      have hw2 : Works { x.nestRead e with restartCause := .host } := { hw' with }
      exact ⟨hr2.poweredUp now, hw2.poweredUp hx' now, rfl, hd⟩
    · have hrest := hw'.rests hx' (st := .off) rfl
      exact ⟨{ hr' with }, hrest, rfl, hd⟩

theorem uninhibited_sound (hr : Ranges c x) (hw : Works x) (hx : x.state.powered = false) (e : Option Byte) (now : Count)
    (mask : BitVec 8) :
    Ranges c (x.uninhibited e now mask) ∧ Works (x.uninhibited e now mask) ∧
      inPlay (x.uninhibited e now mask).state = true ∧ (x.uninhibited e now mask).disabled = x.disabled := by
  unfold Slot.uninhibited
  split
  · have hrest := hw.rests hx (st := .fault) rfl
    exact ⟨{ hr with }, { hrest with }, rfl, rfl⟩
  · split
    · exact admitted_sound hr hw hx e now mask
    · have hrest := hw.rests hx (st := .vacant) rfl
      exact ⟨{ hr with }, hrest, rfl, rfl⟩

/-- A slot that leaves INHIBITED with no cause of inhibit left stands well (R9). -/
theorem soundSlot_uninhibited (hr : Ranges p.ceiling x) (hw : Works x) (hx : x.state.powered = false)
    (hf : p.fitted = true) (hi : (p.isOpen || x.disabled) = false) (e : Option Byte) (now : Count) (mask : BitVec 8) :
    SoundSlot p (x.uninhibited e now mask) := by
  obtain ⟨h1, h2, hst, hd⟩ := uninhibited_sound hr hw hx e now mask
  exact { h1, h2, placed_in_play hf (by rw [hd]; exact hi) hst with }

/-- A slot that is inhibited for a cause that stands (R8). -/
theorem soundSlot_inhibited (hr : Ranges p.ceiling x) (hf : p.fitted = true) (hi : (p.isOpen || x.disabled) = true)
    (cause : DropCause) (mask : BitVec 8) : SoundSlot p ((x.stopped cause .inhibited).raised .inhibit mask) :=
  { hr.stopped cause .inhibited, works_stopped x cause (dest := .inhibited) rfl,
    placed_inhibited (x := (x.stopped cause .inhibited).raised .inhibit mask) hf hi rfl with }

theorem SoundSlot.attached (h : SoundSlot p x) (e : Option Byte) (now : Count) (mask : BitVec 8) :
    SoundSlot p (attached x e now mask) := by
  unfold Placement.attached
  dsimp only
  split
  · next hv =>
    have hx : x.state.powered = false := by rw [hv]; rfl
    have hplay : inPlay x.state = true := by rw [hv]; rfl
    split
    · exact { h.toRanges.raised .attach mask, h.toWorks.rests hx (st := .fault) rfl,
              h.toPlaced.moves (y := { x with state := .fault }) hplay rfl rfl with }
    · obtain ⟨h1, h2, hst, hd⟩ :=
        admitted_sound (h.toRanges.raised .attach mask) (h.toWorks.raised .attach mask) hx e now mask
      exact { h1, h2, h.toPlaced.moves hplay hst hd with }
  · exact h.raised .attach mask

/-- The states of a slot in play. -/
theorem fitted_of_ne_unfitted (h : Placed p x) (hx : x.state ≠ .unfitted) : p.fitted = true := by
  have := mt h.unfitted.mpr hx
  simpa using this

theorem inPlay_iff {st : SlotState} : inPlay st = true ↔ st ≠ .unfitted ∧ st ≠ .inhibited := by simp [inPlay]

theorem SoundSlot.poweredUp (h : SoundSlot p x) (hx : x.state.powered = false) (hp : inPlay x.state = true) (now : Count) :
    SoundSlot p (x.poweredUp now) :=
  { h.toRanges.poweredUp now, h.toWorks.poweredUp hx now, h.toPlaced.moves (y := x.poweredUp now) hp rfl rfl with }

theorem resetState_powered (x : Slot) : x.resetState.powered = false := by
  unfold Slot.resetState
  split
  · rfl
  · rfl
  · rfl
  · split <;> rfl

/-- A slot that RESET_SLOT resets is INHIBITED or in play as it was (R26). -/
theorem SoundSlot.resetBy (h : SoundSlot p x) (hx : x.state ≠ .unfitted) (now : Count) : SoundSlot p (resetBy x now) := by
  have hr := h.toRanges.stopped .slotReset x.resetState
  have hw := works_stopped x .slotReset (resetState_powered x)
  have hp : Placed p (x.stopped .slotReset x.resetState) := by
    by_cases hi : x.state = .inhibited
    · refine h.toPlaced.same ?_ rfl
      change x.resetState = x.state
      unfold Slot.resetState
      rw [hi]
    · refine h.toPlaced.moves (inPlay_iff.mpr ⟨hx, hi⟩) ?_ rfl
      change inPlay x.resetState = true
      unfold Slot.resetState
      split
      · rfl
      · next he => exact absurd he hi
      · next he => exact absurd he hx
      · split <;> rfl
  exact { hr, hw, hp with ring := Nat.zero_le _, attempts := Nat.zero_le _ }

theorem SoundSlot.faultCleared (h : SoundSlot p x) (hx : x.state = .fault) (e : Option Byte) (now : Count) (mask : BitVec 8) :
    SoundSlot p (faultCleared x e now mask) := by
  have hpow : x.state.powered = false := by rw [hx]; rfl
  have hplay : inPlay x.state = true := by rw [hx]; rfl
  have hr' := h.toRanges.nestRead e
  have hw' := h.toWorks.nestRead e
  obtain ⟨hs, hd⟩ := nestRead_state x e
  unfold SlotActs.faultCleared
  split
  · exact { h.toRanges, h.toWorks.rests hpow (st := .vacant) rfl,
            h.toPlaced.moves (y := { x with state := .vacant }) hplay rfl rfl with
            further := fun r hr => by cases hr }
  · split
    · exact { hr', hw', h.toPlaced.same (y := x.nestRead e) hs hd with
              further := fun r hr => by cases hr; exact Nat.zero_le _ }
    · exact { hr', hw'.rests (by rw [hs]; exact hpow) (st := .off) rfl,
              h.toPlaced.moves (y := { x.nestRead e with state := .off }) hplay rfl hd with
              further := fun r hr => by cases hr }

theorem SoundSlot.disabledBy (h : SoundSlot p x) (hx : x.state ≠ .unfitted) (mask : BitVec 8) :
    SoundSlot p (disabledBy x mask) := by
  have hf := fitted_of_ne_unfitted h.toPlaced hx
  unfold SlotActs.disabledBy
  split
  · next hi => exact { h.toRanges, h.toWorks, placed_inhibited (x := { x with disabled := true }) hf (by simp) hi with }
  · have hr : Ranges p.ceiling { x with disabled := true } := { h.toRanges with }
    exact soundSlot_inhibited hr hf (by simp) .disabled mask

theorem SoundSlot.enabledBy (h : SoundSlot p x) (hx : x.state ≠ .unfitted) (e : Option Byte) (now : Count) (mask : BitVec 8) :
    SoundSlot p (enabledBy x p.isOpen e now mask) := by
  have hf := fitted_of_ne_unfitted h.toPlaced hx
  have hr : Ranges p.ceiling { x with disabled := false } := { h.toRanges with }
  have hw : Works { x with disabled := false } := { h.toWorks with }
  unfold SlotActs.enabledBy
  split
  · next hi =>
    obtain ⟨hst, hopen⟩ := hi
    exact soundSlot_uninhibited hr hw (by rw [hst]; rfl) hf (by simp [hopen]) e now mask
  · next hi =>
    refine { hr, hw with unfitted := h.unfitted, inhibited := fun _ => ⟨fun hst => ?_, fun hopen => ?_⟩ }
    · simpa using fun he => hi ⟨hst, he⟩
    · refine (h.inhibited hf).mpr ?_
      have hopen : p.isOpen = true := by simpa using hopen
      rw [hopen]
      rfl

/-- A slot of a bank whose drawer has taken the level `p.isOpen` (R7 to R9): before, it stood well with another level. -/
theorem SoundSlot.drawerMoved {o : Bool} (h : SoundSlot { p with isOpen := o } x) (hx : p.fitted = true) (e : Option Byte)
    (now : Count) (mask : BitVec 8) : SoundSlot p (drawerMoved p.isOpen x e now mask) := by
  have hne : x.state ≠ .unfitted := fun he => by simpa [hx] using h.unfitted.mp he
  have hr : Ranges p.ceiling x := h.toRanges
  unfold Inputs.drawerMoved
  cases hopen : p.isOpen with
  | true =>
    rw [if_pos rfl]
    split
    · exact soundSlot_inhibited hr hx (by simp [hopen]) .interlock mask
    · next hi =>
      have hst : x.state = .inhibited := by simpa [inhibits, hne] using hi
      exact { h.toRanges, h.toWorks, placed_inhibited (x := x) hx (by simp [hopen]) hst with }
  | false =>
    rw [if_neg Bool.false_ne_true]
    split
    · next hrel =>
      obtain ⟨hst, hdis⟩ : x.state = .inhibited ∧ x.disabled = false := by simpa [released] using hrel
      exact soundSlot_uninhibited hr h.toWorks (by rw [hst]; rfl) hx (by simp [hopen, hdis]) e now mask
    · next hrel =>
      refine { h.toRanges, h.toWorks with
               unfitted := h.unfitted, inhibited := fun _ => ⟨fun hst => ?_, fun hdis => ?_⟩ }
      · have : x.disabled = true := by simpa [released, hst] using hrel
        rw [this, Bool.or_true]
      · refine (h.inhibited hx).mpr ?_
        have hdis : x.disabled = true := by simpa [hopen] using hdis
        rw [hdis, Bool.or_true]

/-! ### Frames and streams -/

theorem SoundSlot.sendsAs (h : SoundSlot p x) (hs : x.sendsAs y) : SoundSlot p y := by
  obtain ⟨t, n, rfl⟩ := hs
  exact { h with }

theorem modStream_with (x : Slot) (g : StreamRecord → StreamRecord) :
    ∃ f, x.modStream g = { x with inFlight := f } ∧ f.isSome = x.inFlight.isSome := by
  unfold Slot.modStream
  split
  · next f hf =>
    split
    · exact ⟨_, rfl, by rw [hf]; rfl⟩
    · exact ⟨x.inFlight, rfl, rfl⟩
  · exact ⟨x.inFlight, rfl, rfl⟩

/-- A change of the stream fields that keeps the credit in range and takes no reference. -/
theorem SoundSlot.modStream (h : SoundSlot p x) {g : StreamRecord → StreamRecord}
    (hcredit : ∀ r, r.credit ≤ Config.creditLimit → (g r).credit ≤ Config.creditLimit)
    (hheld : ∀ r, r.referenceHeld = false → (g r).referenceHeld = false) : SoundSlot p (x.modStream g) := by
  have hstream := ImageStore.stream_modStream x g
  obtain ⟨f, hx, hf⟩ := modStream_with x g
  rw [hx] at hstream ⊢
  refine { h with credit := fun r hr => ?_, inFlight := hf.trans h.inFlight, streaming := fun hs => ?_, stream := fun r hr => ?_ }
  · rw [hstream] at hr
    obtain ⟨q, hq, rfl⟩ := Option.map_eq_some_iff.mp hr
    exact hcredit q (h.credit q hq)
  · rw [hstream, Option.isSome_map]
    exact h.streaming hs
  · rw [hstream] at hr
    obtain ⟨q, hq, rfl⟩ := Option.map_eq_some_iff.mp hr
    exact (h.stream q hq).imp_right fun ⟨ha, hrel⟩ => ⟨ha, hheld q hrel⟩

theorem SoundSlot.released (h : SoundSlot p x) : SoundSlot p x.released :=
  h.modStream (fun _ hr => hr) fun _ _ => rfl

theorem SoundSlot.sameButGrant (h : SoundSlot p x) (hs : x.sameButGrant y) : SoundSlot p y := by
  rcases hs with rfl | ⟨-, rfl⟩
  · exact h
  · exact h.modStream (fun _ hr => hr) fun _ hr => hr

/-- ABORTING keeps the in-flight record, its window stopped and a read given up. -/
theorem stream_aborted (x : Slot) :
    Slot.stream { x with inFlight := x.inFlight.map InFlight.aborted } =
      x.stream.map fun r => { r with read := .none } := by
  unfold Slot.stream InFlight.aborted
  cases x.inFlight with
  | none => rfl
  | some f =>
    simp only [Option.map_some]
    cases f.transaction <;> rfl

theorem released_not_held {r : StreamRecord} (h : x.released.stream = some r) : r.referenceHeld = false := by
  rw [Slot.released, ImageStore.stream_modStream] at h
  obtain ⟨q, -, rfl⟩ := Option.map_eq_some_iff.mp h
  rfl

/-- A slot that holds an in-flight record enters ABORTING, the reference released (R51). -/
theorem SoundSlot.aborting (h : SoundSlot p x) (hi : x.inFlight.isSome = true) : SoundSlot p x.released.abortingFrom := by
  have hr := h.released
  have hwork : x.state.working = true := h.inFlight.symm.trans hi
  have hpow := powered_of_working hwork
  obtain ⟨f, hx, -, hf⟩ := x.released_with
  have hstate : x.released.state = x.state := by rw [hx]
  have hbridge : x.released.bridge = none := by
    rw [hx]
    exact h.toWorks.no_bridge (by intro he; rw [he] at hwork; cases hwork)
  refine SoundSlot.sendsAs (x := { x.released with
    state := .aborting, abortWait := none, inFlight := x.released.inFlight.map InFlight.aborted
    link := { x.released.link with exchange := none } }) ?_ (Slot.raiseFrame_sendsAs _ _ _ _)
  have hvbus : x.released.power.vbus = true := hr.vbus.trans (by rw [hstate]; exact hpow)
  have hin : (x.released.inFlight.map InFlight.aborted).isSome = true := by
    rw [Option.isSome_map, hx]
    exact hf.trans hi
  have hstream (r : StreamRecord)
      (hs : Slot.stream { x.released with inFlight := x.released.inFlight.map InFlight.aborted } = some r) :
      r.referenceHeld = false ∧ r.credit ≤ Config.creditLimit := by
    rw [stream_aborted] at hs
    obtain ⟨q, hq, rfl⟩ := Option.map_eq_some_iff.mp hs
    exact ⟨released_not_held (r := q) hq, hr.credit q hq⟩
  exact
    { hr.toPlaced.moves (y := { x.released with state := .aborting }) (by rw [hstate]; exact inPlay_of_powered hpow) rfl rfl,
      hr with
      target := fun _ he => by cases he
      vbus := hvbus
      inFlight := hin
      streaming := fun hs => by cases hs
      stream := fun r hs => .inr ⟨rfl, (hstream r hs).1⟩
      credit := fun r hs => (hstream r hs).2
      boot := fun _ he => by cases he
      stepDown := fun _ he => by cases he
      bridge := congrArg Option.isSome hbridge }

/-- A rate exchange starts on a slot whose state allows its purpose (R42 to R44). -/
theorem SoundSlot.exchanging (h : SoundSlot p x) (e : Exchange) (ht : e.target ≤ p.ceiling)
    (hb : e.purpose = .boot → x.state = .booting) (hs : e.purpose = .stepDown → x.state = .ready ∨ x.state = .streaming) :
    SoundSlot p { x with link := { x.link with exchange := some e } } :=
  { h with
    target := fun _ he => by cases he; exact ht
    boot := fun _ he => by cases he; exact hb
    stepDown := fun _ he => by cases he; exact hs }

theorem SoundSlot.exchangeEnds (h : SoundSlot p x) : SoundSlot p { x with link := { x.link with exchange := none } } :=
  { h with
    target := fun _ he => by cases he
    boot := fun _ he => by cases he
    stepDown := fun _ he => by cases he }

theorem SoundSlot.rated (h : SoundSlot p x) {n : Nat} (hn : n ≤ p.ceiling) :
    SoundSlot p { x with link := { x.link with rate := n } } := { h with rate := hn }

theorem SoundSlot.setScore (h : SoundSlot p x) {v : Nat} (hv : v ≤ Config.scoreMax) : SoundSlot p (x.setScore v) :=
  { h with score := hv }

theorem SoundSlot.loseScore (h : SoundSlot p x) (n : Nat) : SoundSlot p (x.setScore (x.link.score - n)) :=
  h.setScore ((Nat.sub_le _ _).trans h.score)

theorem SoundSlot.waitStarts (h : SoundSlot p x) (now : Count) : SoundSlot p (x.startExchangeWait now) := by
  have hmap (e : Exchange) (he : (x.startExchangeWait now).link.exchange = some e) :
      ∃ e', x.link.exchange = some e' ∧ e'.target = e.target ∧ e'.purpose = e.purpose := by
    obtain ⟨q, hq, rfl⟩ := Option.map_eq_some_iff.mp he
    exact ⟨q, hq, rfl, rfl⟩
  refine { h with target := fun e he => ?_, boot := fun e he hp => ?_, stepDown := fun e he hp => ?_ }
  · obtain ⟨q, hq, ht, -⟩ := hmap e he
    exact ht ▸ h.target q hq
  · obtain ⟨q, hq, -, hpq⟩ := hmap e he
    exact h.boot q hq (hpq.trans hp)
  · obtain ⟨q, hq, -, hpq⟩ := hmap e he
    exact h.stepDown q hq (hpq.trans hp)

/-- A HELLO's changes of the link and the slot record (R39). -/
theorem SoundSlot.greet (h : SoundSlot p x) (a : AgentIdentity) : SoundSlot p (x.greet a) :=
  { h with
    score := show 48 ≤ Config.scoreMax by decide
    rate := Nat.zero_le _
    target := fun _ he => by cases he
    boot := fun _ he => by cases he
    stepDown := fun _ he => by cases he
    pendingCeiling := fun _ hv => by cases hv
    profile := (h.toRanges.stopped .detached .vacant).profile }

/-! ### The life cycle in the powered states -/

/-- A powered slot with no stream, no in-flight record, no exchange and no bridge goes to a powered state that has none. -/
theorem SoundSlot.moves (h : SoundSlot p x) (hx : x.state.powered = true) {st : SlotState} (hst : st.powered = true)
    (hw : st.working = false) (hb : st ≠ .bridge) (hne : x.state ≠ .bridge)
    (he : ∀ e, x.link.exchange = some e → e.purpose = .stepDown ∧ st = .ready) :
    SoundSlot p { x with state := st, inFlight := none } :=
  { h.toPlaced.moves (y := { x with state := st }) (inPlay_of_powered hx) (inPlay_of_powered hst) rfl, h with
    vbus := h.vbus.trans (hx.trans hst.symm)
    inFlight := hw.symm
    streaming := fun hs => by rw [show st = .streaming from hs] at hw; cases hw
    stream := fun _ hr => by cases hr
    credit := fun _ hr => by cases hr
    boot := fun e hx hp => by
      obtain ⟨hq, -⟩ := he e hx
      rw [hq] at hp; cases hp
    stepDown := fun e hx _ => .inl (he e hx).2
    bridge := by rw [h.toWorks.no_bridge hne, beq_eq_false_iff_ne.mpr hb]; rfl }

theorem SoundSlot.booting (h : SoundSlot p x) (hx : x.state = .powering) : SoundSlot p { x with state := .booting } := by
  have hne : x.link.exchange = none := h.toWorks.no_exchange (by simp [hx]) (by simp [hx]) (by simp [hx])
  have hi : x.inFlight = none := h.toWorks.no_inFlight (by rw [hx]; rfl)
  have hm := h.moves (st := .booting) (by rw [hx]; rfl) rfl rfl (by decide) (by simp [hx]) (by simp [hne])
  rw [← hi] at hm
  exact hm

/-- A BOOTING slot whose exchange has ended becomes READY (R12). -/
theorem SoundSlot.becomesReady (h : SoundSlot p x) (hx : x.state = .booting) :
    SoundSlot p { x with state := .ready, recoveryAttempts := 0, link := { x.link with exchange := none } } := by
  have hi : x.inFlight = none := h.toWorks.no_inFlight (by rw [hx]; rfl)
  have hm := h.exchangeEnds.moves (st := .ready) (by rw [hx]; rfl) rfl rfl (by decide) (by simp [hx])
    fun _ he => by cases he
  rw [← hi] at hm
  exact { hm with attempts := Nat.zero_le _ }

/-- The transaction of a slot ends, and it is READY: a step-down of a stream goes on there (R50, R52). -/
theorem SoundSlot.transactionEnds (h : SoundSlot p x) (hx : x.state.working = true) :
    SoundSlot p { x with state := .ready, inFlight := none } := by
  have hne : x.state ≠ .bridge := by intro he; rw [he] at hx; cases hx
  refine h.moves (powered_of_working hx) rfl rfl (by decide) hne fun e he => ⟨?_, rfl⟩
  cases hp : e.purpose with
  | stepDown => rfl
  | boot => rw [h.boot e he hp] at hx; cases hx

/-- A framed slot whose exchange has been given up boots anew (R16). -/
theorem SoundSlot.bootsAnew (h : SoundSlot p x) (hx : x.state.framed = true) (he : x.link.exchange = none) :
    SoundSlot p { x with state := .booting, inFlight := none } := by
  have hne : x.state ≠ .bridge := by intro he; rw [he] at hx; cases hx
  exact h.moves (powered_of_framed hx) rfl rfl (by decide) hne (by simp [he])

theorem SoundSlot.queued (h : SoundSlot p x) {l : List QueueEntry} (hl : l.length ≤ Config.queueDepth) :
    SoundSlot p { x with queue := l } := { h with queue := hl }

/-- A READY slot with no exchange starts a member: it holds an in-flight record, and a stream's fields in STREAMING. -/
theorem SoundSlot.starts (h : SoundSlot p x) (hx : x.state = .ready) (he : x.link.exchange = none) (f : InFlight)
    {st : SlotState} (hst : st = .busy ∧ f.transaction = .directive ∨
      st = .streaming ∧ ∃ r, f.transaction = .stream r ∧ r.credit = 0) :
    SoundSlot p { x with state := st, inFlight := some f } := by
  have hpow : st.powered = true := by rcases hst with ⟨rfl, -⟩ | ⟨rfl, -⟩ <;> rfl
  have hw : st.working = true := by rcases hst with ⟨rfl, -⟩ | ⟨rfl, -⟩ <;> rfl
  have hstream (r : StreamRecord) (hr : Slot.stream { x with state := st, inFlight := some f } = some r) :
      st = .streaming ∧ r.credit = 0 := by
    rcases hst with ⟨-, hf⟩ | ⟨rfl, q, hf, hq⟩
    · simp [Slot.stream, hf] at hr
    · simp only [Slot.stream, hf, Option.some.injEq] at hr
      exact ⟨rfl, hr ▸ hq⟩
  exact
    { h.toPlaced.moves (y := { x with state := st }) (by rw [hx]; rfl) (inPlay_of_powered hpow) rfl, h with
      vbus := h.vbus.trans (by rw [hx]; exact hpow.symm)
      inFlight := hw.symm
      streaming := fun hs => by
        rcases hst with ⟨rfl, -⟩ | ⟨-, q, hf, -⟩
        · cases hs
        · simp [Slot.stream, hf]
      stream := fun r hr => .inl (hstream r hr).1
      credit := fun r hr => by rw [(hstream r hr).2]; exact Nat.zero_le _
      boot := fun e hx => by rw [he] at hx; cases hx
      stepDown := fun e hx => by rw [he] at hx; cases hx
      bridge := by
        rw [h.toWorks.no_bridge (by simp [hx])]
        rcases hst with ⟨rfl, -⟩ | ⟨rfl, -⟩ <;> rfl }

/-! ### The console ring and the bridge -/

theorem SoundSlot.ringed (h : SoundSlot p x) {l : List Byte} (hl : l.length ≤ Config.ringBytes) (w : Bool) :
    SoundSlot p { x with ring := l, wrapped := w } := { h with ring := hl }

theorem SoundSlot.pushByte (h : SoundSlot p x) (b : Byte) : SoundSlot p (x.pushByte b) := by
  have hring := h.ring
  unfold Slot.pushByte
  split
  · next hlt => exact { h with ring := by rw [List.length_append]; exact hlt }
  · have hlen : (x.ring.drop 1 ++ [b]).length ≤ Config.ringBytes := by
      have hpos : 0 < Config.ringBytes := by decide
      simp only [List.length_append, List.length_drop, List.length_singleton]
      omega
    exact { h with ring := hlen }

theorem SoundSlot.pushBytes (l : List Byte) (h : SoundSlot p x) : SoundSlot p (l.foldl Slot.pushByte x) := by
  induction l generalizing x with
  | nil => exact h
  | cons b l ih => exact ih (h.pushByte b)

theorem SoundSlot.modBridge (h : SoundSlot p x) {f : BridgeRecord → BridgeRecord}
    (hf : ∀ b, x.bridge = some b → b.output.length ≤ Config.ringBytes → (f b).output.length ≤ Config.ringBytes) :
    SoundSlot p { x with bridge := x.bridge.map f } := by
  refine { h with output := fun b hb => ?_, bridge := by rw [Option.isSome_map]; exact h.bridge }
  obtain ⟨q, hq, rfl⟩ := Option.map_eq_some_iff.mp hb
  exact hf q hq (h.output q hq)

theorem SoundSlot.setGathering (h : SoundSlot p x) (t : Option Timer) : SoundSlot p (x.setGathering t) :=
  h.modBridge fun _ _ hb => hb

theorem SoundSlot.restartIdle (h : SoundSlot p x) (now : Count) : SoundSlot p (x.restartIdle now) :=
  h.modBridge fun _ _ hb => hb

theorem SoundSlot.setOutput (h : SoundSlot p x) {l : List Byte} (hl : l.length ≤ Config.ringBytes) :
    SoundSlot p (x.setOutput l) :=
  h.modBridge fun _ _ _ => hl

theorem output_le (h : SoundSlot p x) : x.output.length ≤ Config.ringBytes := by
  unfold Slot.output
  split
  · next b hb => exact h.output b hb
  · exact Nat.zero_le _

/-- A READY slot with no exchange enters BRIDGE with an empty output buffer (R164). -/
theorem SoundSlot.bridged (h : SoundSlot p x) (hx : x.state = .ready) (he : x.link.exchange = none) {b : BridgeRecord}
    (hb : b.output = []) : SoundSlot p { x with state := .bridge, bridge := some b } :=
  { h.toPlaced.moves (y := { x with state := .bridge }) (by rw [hx]; rfl) rfl rfl, h with
    vbus := h.vbus.trans (by rw [hx]; rfl)
    inFlight := h.inFlight.trans (by rw [hx]; rfl)
    streaming := fun hs => by cases hs
    stream := fun r hr => by
      have hnone := h.toWorks.no_stream (by simp [hx]) (by simp [hx])
      exact absurd (hnone.symm.trans hr) (Option.some_ne_none r).symm
    boot := fun e hx => by rw [he] at hx; cases hx
    stepDown := fun e hx => by rw [he] at hx; cases hx
    bridge := rfl
    output := fun q hq => by cases hq; rw [hb]; exact Nat.zero_le _ }

/-- A bridged slot leaves its bridge and boots with the link at rest (R171). -/
theorem SoundSlot.unbridged (h : SoundSlot p x) (hx : x.state = .bridge) :
    SoundSlot p { x with state := .booting, bridge := none, link := LinkState.rest } :=
  { h.toPlaced.moves (y := { x with state := .booting }) (by rw [hx]; rfl) rfl rfl, h with
    vbus := h.vbus.trans (by rw [hx]; rfl)
    inFlight := h.inFlight.trans (by rw [hx]; rfl)
    streaming := fun hs => by cases hs
    stream := fun r hr => by
      have hnone := h.toWorks.no_stream (by simp [hx]) (by simp [hx])
      exact absurd (hnone.symm.trans hr) (Option.some_ne_none r).symm
    boot := fun _ he => by cases he
    stepDown := fun _ he => by cases he
    bridge := rfl
    output := fun _ hb => by cases hb
    score := show 48 ≤ Config.scoreMax by decide
    rate := Nat.zero_le _
    target := fun _ he => by cases he }

/-! ### Samples, the profile and the fault record -/

/-- A sample joins the history, whose oldest ones may leave it (R147). -/
theorem addSample_with (q : PowerRecord) (v : Nat) :
    ∃ l, q.addSample v = { q with history := l, sampleDue := false } ∧ l.length ≤ Config.historyLimit ∧
      ∀ w ∈ l, w ∈ q.history ∨ w = v := by
  generalize hl : (q.history ++ [v]).drop ((q.history ++ [v]).length - Config.historyLimit) = l
  refine ⟨l, by rw [PowerRecord.addSample, hl], ?_, fun w hw => ?_⟩
  · rw [← hl, List.length_drop]
    omega
  · rw [← hl] at hw
    simpa using List.mem_of_mem_drop hw

theorem SoundSlot.sampled (h : SoundSlot p x) {v : Nat} (hv : v ≤ Config.fullScale) {l : List Nat}
    (hlen : l.length ≤ Config.historyLimit) (hmem : ∀ w ∈ l, w ∈ x.power.history ∨ w = v) :
    SoundSlot p { x with power := { x.power with history := l, sampleDue := false } } := by
  refine { h with history := hlen, samples := fun w hw => ?_ }
  rcases hmem w hw with hw | rfl
  · exact h.samples w hw
  · exact hv

theorem SoundSlot.accumulated (h : SoundSlot p x) (hx : x.power.vbus = true) {a : Nat} (ha : a ≤ x.profile.tripBudget) :
    SoundSlot p { x with power := { x.power with accumulator := a } } :=
  { h with budget := ha, unpowered := fun hv => by rw [hx] at hv; cases hv }

theorem SoundSlot.tripWith (h : SoundSlot p x) (hx : x.power.vbus = true) {a : Nat} (ha : a ≤ x.profile.tripBudget)
    (trip : Trip) (cause : FaultCause) (v : Nat) : SoundSlot p (x.tripWith a trip cause v) :=
  { h.accumulated hx ha with }

theorem SoundSlot.takeSample (h : SoundSlot p x) (hx : x.power.vbus = true) (now : Count) {v : Nat}
    (hv : v ≤ Config.fullScale) : SoundSlot p (x.takeSample now v) := by
  obtain ⟨l, hq, hlen, hmem⟩ := addSample_with x.power v
  unfold Slot.takeSample
  rw [hq]
  extract_lets y computed
  have hs : SoundSlot p y := h.sampled hv hlen hmem
  have hy : y.power.vbus = true := hx
  split
  · exact hs
  split
  · exact hs.tripWith hy h.budget .short .short v
  split
  · exact hs
  split
  · exact hs.tripWith hy le_rfl .overcurrent .overcurrent v
  · next hlt => exact hs.accumulated hy (Nat.le_of_lt (Nat.not_le.mp hlt))

theorem SoundSlot.countFurther (h : SoundSlot p x) : SoundSlot p x.countFurther := by
  refine { h with further := fun r hr => ?_ }
  obtain ⟨q, -, rfl⟩ := Option.map_eq_some_iff.mp hr
  exact Nat.min_le_right _ _

theorem clampTo_range {lo hi v : Nat} (h : lo ≤ hi) : lo ≤ clampTo lo hi v ∧ clampTo lo hi v ≤ hi := by
  unfold clampTo
  split
  · exact ⟨le_rfl, h⟩
  split
  · exact ⟨h, le_rfl⟩
  · next h1 h2 => exact ⟨Nat.not_lt.mp h1, Nat.not_lt.mp h2⟩

theorem profileValue_range {f : ProfileFields} {k lo hi given held : Nat} (h : lo ≤ hi) (hl : lo ≤ held) (hh : held ≤ hi) :
    lo ≤ profileValue f k lo hi given held ∧ profileValue f k lo hi given held ≤ hi := by
  unfold profileValue
  split
  · exact clampTo_range h
  · exact ⟨hl, hh⟩

theorem Profile.inRange_write {q : Profile} (h : q.inRange c) (f : ProfileFields) : (q.write f).inRange c := by
  obtain ⟨hrate, hb1, hb2, hk, ho1, ho2, hl1, hl2, ht1, ht2, hi⟩ := h
  exact ⟨hrate, (profileValue_range (by decide) hb1 hb2).1, (profileValue_range (by decide) hb1 hb2).2,
    (profileValue_range (by decide) (Nat.zero_le _) hk).2, (profileValue_range (by decide) ho1 ho2).1,
    (profileValue_range (by decide) ho1 ho2).2, (profileValue_range (by decide) hl1 hl2).1,
    (profileValue_range (by decide) hl1 hl2).2, (profileValue_range (by decide) ht1 ht2).1,
    (profileValue_range (by decide) ht1 ht2).2, (profileValue_range (by decide) (Nat.zero_le _) hi).2⟩

/-- A slot whose profile is written: without a trip_budget its accumulator stays below the one held, and with one it is held
at the new one (R21 to R23, R153). -/
theorem SoundSlot.writeProfile (h : SoundSlot p x) (f : ProfileFields) : SoundSlot p (x.writeProfile f p.ceiling) := by
  have hprofile := Profile.inRange_write h.profile f
  set y := Slot.writeCeiling { x with profile := x.profile.write f } f p.ceiling with hy
  obtain ⟨v, q, hyx, hv, hq, hbudget⟩ : ∃ v q, y = { x with pendingCeiling := v, profile := q } ∧
      (∀ n, v = some n → n ≤ p.ceiling) ∧ q.inRange p.ceiling ∧ q.tripBudget = (x.profile.write f).tripBudget := by
    rw [hy]
    unfold Slot.writeCeiling
    split
    · dsimp only
      split
      · exact ⟨_, _, rfl, fun n hn => by cases hn; exact (clampTo_range (Nat.zero_le _)).2, hprofile, rfl⟩
      · exact ⟨x.pendingCeiling, _, rfl, h.pendingCeiling, ⟨(clampTo_range (Nat.zero_le _)).2, hprofile.2⟩, rfl⟩
    · exact ⟨x.pendingCeiling, _, rfl, h.pendingCeiling, hprofile, rfl⟩
  have hbelow (hle : x.power.accumulator ≤ q.tripBudget) : SoundSlot p y := by
    rw [hyx]
    exact { h with pendingCeiling := hv, profile := hq, budget := hle }
  unfold Slot.writeProfile
  dsimp only
  rw [← hy]
  split
  · unfold Slot.applyBudget
    split
    · next hle =>
      simp only [Bool.and_eq_true, decide_eq_true_eq] at hle
      obtain ⟨hvbus, -⟩ := hle
      rw [hyx] at hvbus ⊢
      exact { h with
              pendingCeiling := hv, profile := hq, budget := le_rfl
              unpowered := fun hoff => by rw [show x.power.vbus = true from hvbus] at hoff; cases hoff }
    · next hle =>
      refine hbelow ?_
      cases hvbus : x.power.vbus with
      | false => rw [h.unpowered hvbus]; exact Nat.zero_le _
      | true =>
        rw [hyx] at hle
        simp only [hvbus, Bool.true_and, decide_eq_true_eq] at hle
        exact Nat.le_of_lt (Nat.not_le.mp hle)
  · next h7 =>
    refine hbelow ?_
    rw [hbudget]
    have : (x.profile.write f).tripBudget = x.profile.tripBudget := by
      simp [Profile.write, profileValue, h7]
    rw [this]
    exact h.budget

end Sys2Proof.Machine.SlotSound
end

section
/-! PROOF. Every slot sound: what each shared operation of the slot engines, the fan-out engine and the image store keeps of
it (R1, R7, R21, R77, R135, R163). -/

namespace Sys2Proof.Machine.SlotSound

open Tables FanOut PowerBlock SlotActs Placement Inputs

variable {s t : State} {i j : SlotId} {A : List Part} {x : Slot} {p : Place}

/-! ### The condition on a state -/

/-- The place of a slot: the strap CEILING, whether it is fitted, and its drawer's level as taken. -/
def place (s : State) (i : SlotId) : Place := ⟨s.straps.ceiling, s.straps.fitted i, s.drawerOpen i⟩

/-- Every slot is sound at its place. -/
def AllSound (s : State) : Prop := ∀ i, SoundSlot (place s i) (s.slot i)

theorem ranges_iff (c : Nat) (x : Slot) : x.inRange c ↔ Ranges c x :=
  ⟨fun ⟨h1, h2, h3, h4, h5, h6, h7, h8, h9, h10, h11, h12, h13, h14, h15, h16⟩ =>
      ⟨h1, h2, h3, h4, h5, h6, h7, h8, h9, h10, h11, h12, h13, h14, h15, h16⟩,
    fun ⟨h1, h2, h3, h4, h5, h6, h7, h8, h9, h10, h11, h12, h13, h14, h15, h16⟩ =>
      ⟨h1, h2, h3, h4, h5, h6, h7, h8, h9, h10, h11, h12, h13, h14, h15, h16⟩⟩

theorem slotsSound_iff (s : State) : s.slotsSound ↔ AllSound s := by
  constructor
  · rintro ⟨hstates, hranges, hworks⟩ i
    obtain ⟨hvbus, hunfitted, hinhibited⟩ := hstates i
    obtain ⟨h1, h2, h3, h4, h5, h6⟩ := hworks i
    exact { (ranges_iff _ _).mp (hranges i), (⟨hvbus, h1, h2, h3, h4, h5, h6⟩ : Works _),
            (⟨hunfitted, hinhibited⟩ : Placed (place s i) _) with }
  · intro h
    refine ⟨fun i => ⟨(h i).vbus, (h i).unfitted, (h i).inhibited⟩, fun i => (ranges_iff _ _).mpr (h i).toRanges,
      fun i => ⟨(h i).inFlight, (h i).streaming, (h i).stream, (h i).boot, (h i).stepDown, (h i).bridge⟩⟩

theorem place_congr (hk : keepsBut A s t) (hstraps : Part.straps ∉ A) (hinterlocks : Part.interlocks ∉ A) (i : SlotId) :
    place t i = place s i := by
  obtain ⟨ha, hb⟩ : t.interlockA = s.interlockA ∧ t.interlockB = s.interlockB := hk .interlocks hinterlocks
  unfold place State.drawerOpen State.interlock
  rw [hk.straps hstraps, ha, hb]

/-- What leaves the slots and their places alone. -/
theorem AllSound.of_keepsBut (h : AllSound s) (hk : keepsBut A s t)
    (hA : ∀ p ∈ [Part.straps, .interlocks, .slots], p ∉ A) : AllSound t := fun i => by
  rw [place_congr hk (hA _ (by decide)) (hA _ (by decide)), State.slot_congr (hk .slots (hA _ (by decide)))]
  exact h i

/-- What leaves the places alone, and every slot sound. -/
theorem AllSound.of_slots (h : AllSound s) (hk : keepsBut A s t) (hA : ∀ p ∈ [Part.straps, .interlocks], p ∉ A)
    (hs : ∀ j, SoundSlot (place s j) (s.slot j) → SoundSlot (place s j) (t.slot j)) : AllSound t := fun i => by
  rw [place_congr hk (hA _ (by decide)) (hA _ (by decide))]
  exact hs i (h i)

/-- What changes one slot. -/
theorem AllSound.of_slot (h : AllSound s) (hk : keepsBut A s t) (hA : ∀ p ∈ [Part.straps, .interlocks], p ∉ A) {y : Slot}
    (hs : ∀ j, t.slot j = if j = i then y else s.slot j) (hy : SoundSlot (place s i) y) : AllSound t :=
  h.of_slots hk hA fun j hj => by
    rw [hs]
    split
    · next he => exact he ▸ hy
    · exact hj

theorem AllSound.foldl {α : Type} {f : State → α → State} (hf : ∀ s a, AllSound s → AllSound (f s a)) (l : List α)
    (h : AllSound s) : AllSound (l.foldl f s) := by
  induction l generalizing s with
  | nil => exact h
  | cons a l ih => exact ih (hf s a h)

theorem AllSound.modSlot (h : AllSound s) (i : SlotId) {f : Slot → Slot} (hf : SoundSlot (place s i) (f (s.slot i))) :
    AllSound (s.modSlot i f) :=
  h.of_slot (modSlot_keeps s i f) (by decide) (State.slot_modSlot s i · f) hf

/-- A change of a slot that keeps every sound slot sound. -/
theorem AllSound.change (h : AllSound s) (i : SlotId) {f : Slot → Slot} (hf : ∀ {p x}, SoundSlot p x → SoundSlot p (f x)) :
    AllSound (s.modSlot i f) :=
  h.modSlot i (hf (h i))

theorem AllSound.modSlots (h : AllSound s) {f : SlotId → Slot → Slot}
    (hf : ∀ i x, SoundSlot (place s i) x → SoundSlot (place s i) (f i x)) : AllSound (s.modSlots f) :=
  h.of_slots (modSlots_keeps s f) (by decide) fun j hj => by
    rw [slot_modSlots]
    exact hf j _ hj

theorem AllSound.modImage (h : AllSound s) (k : ImageId) {f : Image → Image} : AllSound (s.modImage k f) :=
  h.of_keepsBut (modImage_keeps s k f) (by decide)

theorem AllSound.withPort (h : AllSound s) (q : Port) : AllSound { s with port := q } :=
  h.of_keepsBut (withPort_keeps s q) (by decide)

theorem AllSound.withUplink (h : AllSound s) (u : Uplink) : AllSound { s with uplink := u } :=
  h.of_keepsBut (withUplink_keeps s u) (by decide)

theorem AllSound.withOps (h : AllSound s) (l : List Operation) : AllSound { s with ops := l } :=
  h.of_keepsBut (withOps_keeps s l) (by decide)

theorem AllSound.arbitrate (h : AllSound s) : AllSound s.arbitrate := h.of_keepsBut (arbitrate_keeps s) (by decide)

theorem AllSound.answer (h : AllSound s) {tag : Tag} {kind : Byte} {c : ResultCode} {detail : Half} {reply : Reply} :
    AllSound (s.answer tag kind c detail reply) :=
  h.of_keepsBut (answer_keeps s tag kind c detail reply) (by decide)

/-! ### Events, messages and the store arbiter -/

theorem AllSound.raise (h : AllSound s) (i : SlotId) (k : EventKind) : AllSound (s.raise i k) :=
  h.of_slot (raise_keeps s i k) (by decide) (slot_raise s i k) ((h i).raised k s.noticeMask)

theorem AllSound.raiseAgentUp (h : AllSound s) (i : SlotId) : AllSound (s.raiseAgentUp i) := by
  refine AllSound.raise (h.change i fun hx => ?_) i .agentUp
  exact { hx with }

theorem AllSound.queueNotice (h : AllSound s) (i : SlotId) : AllSound (s.queueNotice i) := by
  refine AllSound.change (h.withUplink _) i fun hx => ?_
  exact { hx with }

theorem AllSound.noticeIfPending (h : AllSound s) (enabled : BitVec 8) (i : SlotId) :
    AllSound (s.noticeIfPending enabled i) := by
  unfold State.noticeIfPending
  split
  · exact h.queueNotice i
  · exact h

theorem AllSound.report (h : AllSound s) (i : SlotId) (r : Report) : AllSound (s.report i r) :=
  h.change i fun hx => { hx with }

theorem AllSound.ask (h : AllSound s) (i : SlotId) (r : SlotRequest) : AllSound (s.ask i r) :=
  h.change i fun hx => { hx with }

theorem AllSound.grant (h : AllSound s) : AllSound s.grant :=
  h.of_slots (grant_keeps s) (by decide) fun j hj => hj.sameButGrant (slot_grant s j)

theorem AllSound.noteAlone (h : AllSound s) : AllSound s.noteAlone := h.of_keepsBut (noteAlone_keeps s) (by decide)

theorem AllSound.releaseReference (h : AllSound s) (i : SlotId) : AllSound (s.releaseReference i) :=
  h.of_slot (releaseReference_keeps s i) (by decide) (slot_releaseReference s i) (h i).released

/-! ### Bridges and stops -/

theorem AllSound.openBridgeOn (h : AllSound s) (i : SlotId) (c : Option Nat) (hst : (s.slot i).state = .ready)
    (he : (s.slot i).link.exchange = none) : AllSound (s.openBridgeOn i c) := by
  refine h.modSlot i ?_
  set x := s.slot i with hx
  have hhunted : SoundSlot (place s i) { x.hunt with ring := [], wrapped := false } :=
    { h i with ring := Nat.zero_le _ }
  have hraised := hhunted.sendsAs (Slot.raiseFrame_sendsAs _ kindBridgeEnter 0 [])
  have heq := Slot.raiseFrame_eq { x.hunt with ring := [], wrapped := false } kindBridgeEnter 0 []
  refine hraised.bridged (by rw [heq]; exact hst) (by rw [heq]; exact he) rfl

theorem AllSound.resolveDeferred (h : AllSound s) (i : SlotId) : AllSound (s.resolveDeferred i) := by
  unfold State.resolveDeferred
  split
  · split
    · next hj =>
      simp only [Bool.and_eq_true, Option.isNone_iff_eq_none] at hj
      obtain ⟨-, he⟩ := hj
      dsimp only
      split
      · next hst =>
        refine AllSound.answer ?_
        refine AllSound.openBridgeOn ?_ i _ hst he
        exact h.withPort _
      · exact (h.withPort _).answer
    · exact h
  · exact h

/-- A slot in play stops in another state in play, which is not powered. -/
theorem AllSound.stopSlot (h : AllSound s) (i : SlotId) (c : DropCause) {dest : SlotState} (hd : dest.powered = false)
    (hp : inPlay dest = true) (hx : inPlay (s.slot i).state = true) : AllSound (s.stopSlot i c dest) :=
  h.of_slot (stopSlot_keeps s i c dest) (by decide) (slot_stopSlot s i c (by rintro rfl; cases hd)) ((h i).stopped hx c hd hp)

theorem AllSound.enterFault (h : AllSound s) (i : SlotId) (c : FaultCause) (d : Half)
    (hx : inPlay (s.slot i).state = true) : AllSound (s.enterFault i c d) :=
  h.of_slot (enterFault_keeps s i c d) (by decide) (slot_enterFault s i c d) ((h i).faulted hx c d s.now s.noticeMask)

theorem AllSound.leaveBridge (h : AllSound s) (i : SlotId) (hx : (s.slot i).state = .bridge) : AllSound (s.leaveBridge i) :=
  h.modSlot i { (h i).unbridged hx with }

/-! ### The slot engine's work -/

theorem AllSound.startExchange (h : AllSound s) (i : SlotId) {n : Nat} {q : ExchangePurpose} (hn : n ≤ s.straps.ceiling)
    (hb : q = .boot → (s.slot i).state = .booting)
    (hs : q = .stepDown → (s.slot i).state = .ready ∨ (s.slot i).state = .streaming) : AllSound (s.startExchange i n q) :=
  h.modSlot i (((h i).exchanging ⟨n, q, none⟩ hn hb hs).sendsAs (Slot.raiseFrame_sendsAs _ _ _ _))

/-- A due step-down goes to the next lower rate (R44, R48). -/
theorem AllSound.stepsDown (h : AllSound s) (i : SlotId)
    (hs : (s.slot i).state = .ready ∨ (s.slot i).state = .streaming) :
    AllSound (s.startExchange i ((s.slot i).link.rate - 1) .stepDown) :=
  h.startExchange i ((Nat.sub_le _ _).trans (h i).rate) (fun hq => by cases hq) fun _ => hs

theorem AllSound.enterAborting (h : AllSound s) (i : SlotId) (hi : (s.slot i).inFlight.isSome = true) :
    AllSound (s.enterAborting i) :=
  h.of_slot (enterAborting_keeps s i) (by decide) (slot_enterAborting s i) ((h i).aborting hi)

theorem AllSound.startMember (h : AllSound s) (i : SlotId) (e : QueueEntry) (hst : (s.slot i).state = .ready)
    (he : (s.slot i).link.exchange = none) : AllSound (s.startMember i e) := by
  unfold State.startMember
  dsimp only
  split
  · refine AllSound.report (h.modSlot i ?_) i _
    exact ((h i).starts hst he _ (.inl ⟨rfl, rfl⟩)).sendsAs (Slot.raiseFrame_sendsAs _ _ _ _)
  · next k generation length crc hw =>
    set held := (s.image k).state == .ready && (s.image k).generation == generation with hheld
    set f : InFlight := ⟨some e.tag, some ⟨s.now, memberWindow e.work e.timeout (s.slot i).link.rate⟩,
      .stream (StreamRecord.begin k generation length crc held)⟩ with hf
    have hstarted (service : Byte) (payload : List Byte) : AllSound (s.modSlot i fun x =>
        Slot.raiseFrame { x with state := .streaming, inFlight := some f } kindStreamOpen service payload) :=
      h.modSlot i (((h i).starts hst he f (.inr ⟨rfl, _, rfl, rfl⟩)).sendsAs (Slot.raiseFrame_sendsAs _ _ _ _))
    split
    · exact ((hstarted _ _).report i _).modImage k
    · refine (((hstarted _ _).report i _).report i _).enterAborting i ?_
      simp only [slot_report, if_true, State.slot_modSlot_same]
      rw [Slot.raiseFrame_eq]
      rfl

theorem AllSound.readyWork (h : AllSound s) (i : SlotId) (hst : (s.slot i).state = .ready) : AllSound (s.readyWork i) := by
  unfold State.readyWork
  dsimp only
  split
  · exact h
  · next he =>
    split
    · exact h.stepsDown i (.inl hst)
    · split
      · exact h
      · next e rest hq =>
        have hlen : rest.length ≤ Config.queueDepth := by
          have := (h i).queue
          rw [hq, List.length_cons] at this
          omega
        refine AllSound.startMember (h.modSlot i ((h i).queued hlen)) i e ?_ ?_
        · rw [State.slot_modSlot_same]; exact hst
        · rw [State.slot_modSlot_same]; simpa using he

theorem SoundSlot.sendChunk (h : SoundSlot p x) : SoundSlot p x.sendChunk := by
  unfold Slot.sendChunk
  split
  · split
    · split
      · refine (h.sendsAs (Slot.raiseFrame_sendsAs _ _ _ _)).modStream (fun r hr => ?_) fun _ hr => hr
        exact (Nat.sub_le _ _).trans hr
      · exact h
    · exact h
  · exact h

theorem SoundSlot.askChunk (h : SoundSlot p x) : SoundSlot p x.askChunk := by
  refine h.modStream (fun r hr => ?_) fun r hr => ?_ <;> split <;> exact hr

theorem AllSound.streamWork (h : AllSound s) (i : SlotId) (hst : (s.slot i).state = .streaming) :
    AllSound (s.streamWork i) := by
  unfold State.streamWork
  dsimp only
  split
  · exact h
  · split
    · exact h.stepsDown i (.inr hst)
    · exact h.noteAlone.change i fun hx => hx.sendChunk.askChunk

theorem AllSound.slotWork (h : AllSound s) (i : SlotId) : AllSound (s.slotWork i) := by
  refine AllSound.grant ?_
  split
  · next hst => exact h.readyWork i hst
  · next hst => exact h.streamWork i hst
  · exact h

/-! ### Readiness, the score and HELLO -/

theorem AllSound.becomeReady (h : AllSound s) (i : SlotId) (hst : (s.slot i).state = .booting) :
    AllSound (s.becomeReady i) :=
  AllSound.slotWork (AllSound.raiseAgentUp (h.modSlot i ((h i).becomesReady hst)) i) i

theorem bootTarget_le (s : State) (i : SlotId) : s.bootTarget i ≤ s.straps.ceiling :=
  (Nat.min_le_left _ _).trans (Nat.min_le_right _ _)

theorem AllSound.bootExchange (h : AllSound s) (i : SlotId) (hst : (s.slot i).state = .booting) :
    AllSound (s.bootExchange i) := by
  unfold State.bootExchange
  split
  · exact h.becomeReady i hst
  · exact h.startExchange i (bootTarget_le s i) (fun _ => hst) fun hq => by cases hq

theorem AllSound.loseScore (h : AllSound s) (i : SlotId) (n : Nat) (hst : (s.slot i).state.framed = true) :
    AllSound (s.loseScore i n) := by
  have hscored : AllSound (s.modSlot i fun x => x.setScore (x.link.score - n)) := h.modSlot i ((h i).loseScore n)
  unfold State.loseScore
  dsimp only
  split
  · refine hscored.enterFault i _ _ ?_
    rw [State.slot_modSlot_same]
    exact inPlay_of_powered (powered_of_framed hst)
  · exact hscored.slotWork i

/-- A framed slot whose agent has restarted boots anew: its in-flight member is dropped, its exchange given up before
(R16, R39, R40). -/
theorem AllSound.restartSelf (h : AllSound s) (i : SlotId) (hst : (s.slot i).state.framed = true)
    (he : (s.slot i).link.exchange = none) :
    AllSound ((s.dropInFlight i .agentRestart).restartSelf i) := by
  refine AllSound.resolveDeferred (AllSound.raise ?_ i .restartSelf) i
  set x := s.slot i with hx
  refine h.of_slot (y := { x with
    reports := x.reports ++ x.inFlightDrop .agentRestart
    inFlight := none, state := .booting, restartCause := .self, abortWait := none })
    (((dropInFlight_keeps s i .agentRestart).trans ((modSlot_keeps _ i _).mono (by decide)))) (by decide) (i := i)
    (fun j => ?_) ?_
  · rw [State.slot_modSlot, slot_dropInFlight, if_pos rfl]
    by_cases hj : j = i
    · rw [if_pos hj, if_pos hj]
    · rw [if_neg hj, if_neg hj, slot_dropInFlight, if_neg hj]
  · exact { (h i).bootsAnew hst he with }

theorem slot_restartSelf_state (s : State) (i : SlotId) : ((s.restartSelf i).slot i).state = .booting := by
  have hraised : (((s.modSlot i fun x => { x with state := .booting, restartCause := .self, abortWait := none }).raise i
      .restartSelf).slot i).state = .booting := by
    rw [slot_raise, if_pos rfl, State.slot_modSlot_same]
    rfl
  rw [State.restartSelf, slot_resolveDeferred_of_not_ready (by rw [hraised]; decide)]
  exact hraised

theorem AllSound.takeHello (h : AllSound s) (i : SlotId) (a : AgentIdentity) (hst : (s.slot i).state.framed = true) :
    AllSound (s.takeHello i a) := by
  have hgreeted : AllSound (s.modSlot i fun x => x.greet a) := h.change i fun hx => hx.greet a
  have hslot : (s.modSlot i fun x => x.greet a).slot i = (s.slot i).greet a := State.slot_modSlot_same s i _
  have hrestarted := hgreeted.restartSelf i (by rw [hslot]; exact hst) (by rw [hslot]; rfl)
  have hstate := slot_restartSelf_state ((s.modSlot i fun x => x.greet a).dropInFlight i .agentRestart) i
  unfold State.takeHello
  dsimp only
  split
  · exact hrestarted.bootExchange i hstate
  · exact hrestarted.bootExchange i hstate
  · exact hrestarted.bootExchange i hstate
  · exact hrestarted.bootExchange i hstate
  · next h1 h2 h3 h4 =>
    have hboot : (s.slot i).state = .booting := by
      revert hst h1 h2 h3 h4
      cases (s.slot i).state <;> simp [SlotState.framed]
    refine AllSound.bootExchange ?_ i ?_
    · exact hgreeted.change i fun hx => { hx with }
    · rw [State.slot_modSlot_same, hslot]
      exact hboot

/-! ### Received frames -/

theorem AllSound.sequenceError (h : AllSound s) (i : SlotId) (seq : Byte) (hst : (s.slot i).state.framed = true) :
    AllSound (s.sequenceError i seq) := by
  refine AllSound.loseScore (s := s.modSlot i _) ?_ i 12 ?_
  · exact h.change i fun hx => { hx with }
  · rw [State.slot_modSlot_same]
    exact hst

theorem AllSound.formatError (h : AllSound s) (i : SlotId) (kind : Byte) (hst : (s.slot i).state.framed = true) :
    AllSound (s.formatError i kind) := by
  unfold State.formatError
  split
  · exact h.loseScore i 8 hst
  · refine AllSound.loseScore (s := s.modSlot i _) ?_ i 8 ?_
    · exact h.change i fun hx => { hx with }
    · rw [State.slot_modSlot_same]
      exact hst

theorem SoundSlot.hunt (h : SoundSlot p x) : SoundSlot p x.hunt := { h with }

theorem SoundSlot.frameTaken (h : SoundSlot p x) (detector : Bool) : SoundSlot p (x.frameTaken detector) := by
  unfold Slot.frameTaken
  split
  · exact h.hunt
  · exact h

theorem frameTaken_state (x : Slot) (detector : Bool) : (x.frameTaken detector).state = x.state := by
  unfold Slot.frameTaken
  split <;> rfl

theorem AllSound.crcError (h : AllSound s) (i : SlotId) : AllSound (s.crcError i) := by
  have hhunting : AllSound (s.modSlot i Slot.hunt) := h.change i SoundSlot.hunt
  unfold State.crcError
  dsimp only
  split
  · next hst =>
    split
    · exact hhunting
    · refine hhunting.loseScore i 8 ?_
      rw [State.slot_modSlot_same]
      exact hst
  · exact h

theorem AllSound.countGood (h : AllSound s) (i : SlotId) : AllSound (s.countGood i) := by
  refine h.change i fun hx => SoundSlot.setScore ?_ (Nat.min_le_right _ _)
  exact { hx with }

/-- Only the frames of a framed link are judged anything but ignored (R38). -/
theorem framed_of_judge {f : Frame} {detector : Bool} (h : x.judge f detector ≠ .ignored) : x.state.framed = true := by
  unfold Slot.judge at h
  by_contra hst
  rw [if_pos (by simpa using hst)] at h
  exact h rfl

theorem AllSound.receive (h : AllSound s) (i : SlotId) (f : Frame) (detector : Bool) {early good : State → State}
    (he : ∀ t, AllSound t → AllSound (early t)) (hg : ∀ t, AllSound t → AllSound (good t)) :
    AllSound (s.receive i f detector early good) := by
  have htaken : AllSound (s.modSlot i fun x => x.frameTaken detector) := h.change i fun hx => hx.frameTaken detector
  have hframed : (s.slot i).judge f detector ≠ .ignored →
      ((s.modSlot i fun x => x.frameTaken detector).slot i).state.framed = true := fun hj => by
    rw [State.slot_modSlot_same, frameTaken_state]
    exact framed_of_judge hj
  unfold State.receive
  dsimp only
  split
  · exact htaken
  · next hj => exact htaken.takeHello i _ (hframed (by rw [hj]; decide))
  · exact he _ htaken
  · next hj => exact htaken.sequenceError i _ (hframed (by rw [hj]; decide))
  · next hj => exact htaken.formatError i _ (hframed (by rw [hj]; decide))
  · exact (hg _ (htaken.countGood i)).slotWork i

theorem AllSound.appendText (h : AllSound s) (i : SlotId) (l : List Byte) : AllSound (s.appendText i l) := by
  have hpushed : AllSound (s.modSlot i fun x => l.foldl Slot.pushByte x) := h.change i fun hx => hx.pushBytes l
  unfold State.appendText
  dsimp only
  split
  · exact hpushed.raise i .text
  · exact hpushed

theorem stepDown_with (x : Slot) (n : Nat) : ∃ f, x.stepDown n = { x with
    link := { x.link with rate := n, score := Config.scoreStepDown, stepDownMark := false, exchange := none }
    inFlight := f } ∧ f.map (·.transaction) = x.inFlight.map (·.transaction) := by
  unfold Slot.stepDown Slot.extendWindow
  split
  · split
    · refine ⟨_, rfl, ?_⟩
      rw [Option.map_map]
      rfl
    · exact ⟨x.inFlight, rfl, rfl⟩
  · exact ⟨x.inFlight, rfl, rfl⟩

/-- An in-flight record's stream is its transaction's. -/
theorem stream_congr {f : Option InFlight} (h : f.map (·.transaction) = x.inFlight.map (·.transaction)) :
    Slot.stream { x with inFlight := f } = x.stream := by
  unfold Slot.stream
  cases f <;> cases hx : x.inFlight <;> simp_all

theorem SoundSlot.withWindow (h : SoundSlot p x) {f : Option InFlight}
    (hf : f.map (·.transaction) = x.inFlight.map (·.transaction)) : SoundSlot p { x with inFlight := f } := by
  have hstream := stream_congr hf
  have hsome : f.isSome = x.inFlight.isSome := by
    rw [← Option.isSome_map (f := (·.transaction)), hf, Option.isSome_map]
  exact
    { h with
      credit := fun r hr => h.credit r (hstream.symm.trans hr)
      inFlight := hsome.trans h.inFlight
      streaming := fun hs => (congrArg Option.isSome hstream).trans (h.streaming hs)
      stream := fun r hr => h.stream r (hstream.symm.trans hr) }

theorem SoundSlot.steppedDown (h : SoundSlot p x) {n : Nat} (hn : n ≤ p.ceiling) : SoundSlot p (x.stepDown n) := by
  obtain ⟨f, hx, hf⟩ := stepDown_with x n
  rw [hx]
  have hended : SoundSlot p { x with
      link := { x.link with rate := n, score := Config.scoreStepDown, stepDownMark := false, exchange := none } } :=
    { h.exchangeEnds with rate := hn, score := show 40 ≤ Config.scoreMax by decide }
  exact hended.withWindow hf

theorem AllSound.exchangeSucceeds (h : AllSound s) (i : SlotId) {e : Exchange} (he : (s.slot i).link.exchange = some e) :
    AllSound (s.exchangeSucceeds i e) := by
  unfold State.exchangeSucceeds
  split
  · next hp =>
    refine AllSound.becomeReady (h.modSlot i ((h i).rated ((h i).target e he))) i ?_
    rw [State.slot_modSlot_same]
    exact (h i).boot e he hp
  · exact AllSound.resolveDeferred (h.modSlot i ((h i).steppedDown ((h i).target e he))) i

theorem AllSound.takeLinkAck (h : AllSound s) (i : SlotId) (l : List Byte) : AllSound (s.takeLinkAck i l) := by
  unfold State.takeLinkAck
  split
  · next he =>
    split
    · exact h.exchangeSucceeds i he
    · exact h
  · exact h

/-- A slot with an in-flight record returns to READY when its transaction ends, its reference released. -/
theorem AllSound.backToReady (h : AllSound s) (i : SlotId) (hst : (s.slot i).state.working = true) {f : Slot → Slot}
    (hf : ∀ {p x}, SoundSlot p { x with state := .ready, inFlight := none } → SoundSlot p (f x)) :
    AllSound ((s.releaseReference i).modSlot i f) := by
  have hreleased := h.releaseReference i
  refine hreleased.modSlot i (hf ((hreleased i).transactionEnds ?_))
  obtain ⟨g, hx, -⟩ := (s.slot i).released_with
  rw [slot_releaseReference, if_pos rfl, hx]
  exact hst

theorem AllSound.takeResult (h : AllSound s) (i : SlotId) (service : Byte) (l : List Byte) :
    AllSound (s.takeResult i service l) := by
  unfold State.takeResult
  split
  · next hst _ => exact h.backToReady i (by rw [hst]; rfl) fun hx => { hx with }
  · next hst _ => exact h.backToReady i (by rw [hst]; rfl) fun hx => { hx with }
  · next hst => exact h.backToReady i (by rw [hst]; rfl) fun hx => { hx with }
  · exact h

theorem AllSound.takeCredit (h : AllSound s) (i : SlotId) (l : List Byte) : AllSound (s.takeCredit i l) := by
  unfold State.takeCredit
  split
  · exact h.change i fun hx => hx.modStream (fun _ _ => Nat.min_le_right _ _) fun _ hr => hr
  · exact h

theorem AllSound.takeFrame (h : AllSound s) (i : SlotId) (f : Frame) : AllSound (s.takeFrame i f) := by
  unfold State.takeFrame
  split
  · exact h.receive i f false (fun _ ht => ht.appendText i _) fun _ ht => ht.appendText i _
  split
  · exact h.receive i f false (fun _ ht => ht) fun _ ht => ht.takeLinkAck i _
  split
  · exact h.receive i f false (fun _ ht => ht) fun _ ht => ht.takeResult i _ _
  split
  · exact h.receive i f false (fun _ ht => ht) fun _ ht => ht.takeCredit i _
  · exact h.receive i f false (fun _ ht => ht) fun _ ht => ht

theorem AllSound.collect (h : AllSound s) (i : SlotId) (l : List Byte) : AllSound (s.modSlot i fun x => x.collect l s.now) :=
  h.change i fun hx => { hx with }

theorem AllSound.takeByte (h : AllSound s) (i : SlotId) (b : Byte) : AllSound (s.takeByte i b) := by
  unfold State.takeByte
  split
  · split
    · exact h.collect i []
    · exact h
  · dsimp only
    split
    · exact h.collect i _
    split
    · exact h.crcError i
    split
    · exact h.collect i _
    split
    · exact h.takeFrame i _
    · exact h.crcError i

/-! ### Frames sent -/

theorem AllSound.frameSent (h : AllSound s) (i : SlotId) (kind : Byte) {effect : Slot → Slot}
    (hf : ∀ {p x}, SoundSlot p x → SoundSlot p (effect x)) : AllSound (s.frameSent i kind effect) := by
  unfold State.frameSent
  split
  · refine AllSound.slotWork (h.change i fun {p x} hx => ?_) i
    refine SoundSlot.sendsAs (x := if x.waitingKind kind then x else effect x) ?_ (Slot.frameEnded_sendsAs _)
    split
    · exact hx
    · exact hf hx
  · exact h

theorem SoundSlot.startAbortWait (h : SoundSlot p x) (now : Count) : SoundSlot p (x.startAbortWait now) := by
  unfold Slot.startAbortWait
  split
  · exact { h with }
  · exact h

theorem SoundSlot.openStream (h : SoundSlot p x) : SoundSlot p x.openStream := by
  unfold Slot.openStream
  split
  · refine h.modStream (fun r hr => ?_) fun r hr => ?_ <;> split <;> exact hr
  · exact h

theorem SoundSlot.chunkSent (h : SoundSlot p x) : SoundSlot p x.chunkSent := by
  unfold Slot.chunkSent
  split
  · refine h.modStream (fun r hr => ?_) fun r hr => ?_ <;> split <;> exact hr
  · exact h

/-! ### Bridges -/

theorem AllSound.queueBridgeOut (h : AllSound s) (i : SlotId) : AllSound (s.queueBridgeOut i) := by
  have hx := h i
  have hlen : ((s.slot i).ring.drop Config.bridgeOutBytes).length ≤ Config.ringBytes := by
    have := hx.ring
    rw [List.length_drop]
    omega
  have hshort : SoundSlot (place s i)
      { s.slot i with ring := (s.slot i).ring.drop Config.bridgeOutBytes, wrapped := false, messageWaiting := true } :=
    { hx.ringed hlen false with }
  exact (h.modSlot i (hshort.setGathering none)).of_keepsBut (sendBridgeOut_keeps _ _) (by decide)

theorem AllSound.buildBridgeOut (h : AllSound s) (i : SlotId) (start : Bool) : AllSound (s.buildBridgeOut i start) := by
  unfold State.buildBridgeOut
  dsimp only
  split
  · split
    · exact h.queueBridgeOut i
    split
    · exact h.change i fun hx => hx.setGathering _
    · exact h
  · exact h

/-! ### The fan-out engine -/

theorem AllSound.modOp (h : AllSound s) (tag : Tag) {f : Operation → Operation} : AllSound (s.modOp tag f) :=
  h.of_keepsBut (modOp_keeps s tag f) (by decide)

theorem AllSound.complete (h : AllSound s) (tag : Tag) (v : Verdict) : AllSound (s.complete tag v) :=
  h.of_keepsBut (complete_keeps s tag v) (by decide)

theorem AllSound.cancelMembers (h : AllSound s) (tag : Tag) (c : CancelCause) : AllSound (s.cancelMembers tag c) := by
  unfold State.cancelMembers
  split
  · exact (h.modOp tag).foldl (fun _ i ht => ht.ask i _) _
  · exact h

theorem AllSound.evaluate (h : AllSound s) (tag : Tag) : AllSound (s.evaluate tag) := by
  unfold State.evaluate
  split
  · split
    · split
      · exact (h.cancelMembers tag _).complete tag _
      · exact h
    · exact h
  · exact h

theorem AllSound.endMember (h : AllSound s) (tag : Tag) (i : SlotId) (admits : MemberStatus → Bool)
    (st : Operation → Member → MemberStatus) : AllSound (s.endMember tag i admits st) := by
  unfold State.endMember
  split
  · split
    · split
      · split
        · exact (h.modOp tag).evaluate tag
        · exact h
      · exact h
    · exact h
  · exact h

/-- A member is QUEUED only where the queue has room for it (R72). -/
theorem room_of_admission {st : SlotState} {depth : Nat} (h : admission st depth = .queued) : depth < Config.queueDepth := by
  unfold admission at h
  split at h
  · split at h
    · next hlt => exact hlt
    · cases h
  · cases h

theorem AllSound.takeAppend (h : AllSound s) (i : SlotId) (e : QueueEntry) : AllSound (s.takeAppend i e) := by
  unfold State.takeAppend
  dsimp only
  split
  · next hq =>
    refine AllSound.slotWork (h.modSlot i ((h i).queued ?_)) i
    rw [List.length_append, List.length_singleton]
    exact room_of_admission hq
  · exact h.endMember _ i _ _

theorem AllSound.takeWithdraw (h : AllSound s) (i : SlotId) (tag : Tag) : AllSound (s.takeWithdraw i tag) := by
  unfold State.takeWithdraw
  dsimp only
  split
  · exact h.modSlot i ((h i).queued ((List.length_filter_le _ _).trans (h i).queue))
  · split
    · next f hf =>
      split
      · split
        · refine h.modSlot i ((h i).withWindow ?_)
          rw [Option.map_map]
          rfl
        · exact h.enterAborting i (by rw [hf]; rfl)
        · exact h
      · exact h
    · exact h

theorem AllSound.takeRequest (h : AllSound s) (i : SlotId) : AllSound (s.takeRequest i) := by
  unfold State.takeRequest
  split
  · exact h
  · next r rest hr =>
    have hpopped : AllSound (s.modSlot i fun x => { x with requests := rest }) := h.change i fun hx => { hx with }
    cases r with
    | append e => exact hpopped.takeAppend i e
    | withdraw tag => exact hpopped.takeWithdraw i tag

theorem AllSound.drain (h : AllSound s) (i : SlotId) : AllSound (s.drain i) :=
  h.foldl (fun _ _ ht => ht.takeRequest i) _

theorem AllSound.openOperation (h : AllSound s) (o : Operation) : AllSound (s.openOperation o) := by
  unfold State.openOperation
  split
  · exact (h.modOp _).complete _ _
  · exact h.foldl (fun _ i ht => ht.ask i _) _

theorem AllSound.acceptOperation (h : AllSound s) (tag : Tag) (kind : Byte) (f : OperationFields) (v : SourceValues)
    (w : Work) : AllSound (s.acceptOperation tag kind f v w) := by
  have hdrained : AllSound ((slotsOf v.set).foldl State.drain s) := h.foldl (fun _ i ht => ht.drain i) _
  unfold State.acceptOperation
  dsimp only
  split
  · exact hdrained.answer
  · exact (hdrained.withOps _).answer.openOperation _

theorem AllSound.operate (h : AllSound s) (tag : Tag) (kind : Byte) (f : OperationFields) (w : Except ResultCode Work) :
    AllSound (s.operate tag kind f w) := by
  unfold State.operate
  split
  · exact h.answer
  · exact h.acceptOperation tag kind f _ _

/-! ### The image store and its engine -/

theorem AllSound.damageImage (h : AllSound s) (k : ImageId) : AllSound (s.damageImage k) := by
  unfold State.damageImage
  split
  · exact (h.modImage k).modSlots fun _ _ hx => { hx with }
  · exact h.modImage k
  · exact h.modImage k
  · exact h

theorem AllSound.chargeWords (h : AllSound s) (k : ImageId) (first n : Nat) : AllSound (s.chargeWords k first n) := by
  unfold State.chargeWords
  dsimp only
  split
  · exact AllSound.damageImage (h.modImage k) k
  · exact h.modImage k

theorem AllSound.chargeRead (h : AllSound s) (k : ImageId) (block : Nat) : AllSound (s.chargeRead k block) := by
  unfold State.chargeRead
  split
  · exact h.chargeWords k _ _
  · exact h

theorem AllSound.deliver (h : AllSound s) (i : SlotId) (block : Nat) (failed : Bool) : AllSound (s.deliver i block failed) := by
  refine h.change i fun hx => hx.modStream (fun r hr => ?_) fun r hr => ?_ <;> split <;> exact hr

theorem AllSound.disturb (h : AllSound s) (first n : Nat) (one two : List Nat) : AllSound (s.disturb first n one two) :=
  h.of_keepsBut (disturb_keeps s first n one two) (by decide)

theorem AllSound.clearBlocks (h : AllSound s) (first n : Nat) : AllSound (s.clearBlocks first n) :=
  h.of_keepsBut (clearBlocks_keeps s first n) (by decide)

theorem AllSound.endJob (h : AllSound s) : AllSound s.endJob := h.of_keepsBut (endJob_keeps s) (by decide)

theorem AllSound.withGranted (h : AllSound s) (g : Option Grant) : AllSound { s with granted := g } :=
  h.of_keepsBut (withArbiter_keeps s g s.arbiterPointer) (by decide)

theorem AllSound.withJobs (h : AllSound s) (l : List Job) (n : Nat) : AllSound { s with jobs := l, engineBlocks := n } :=
  h.of_keepsBut (withJobs_keeps s l n) (by decide)

theorem AllSound.releaseEngine (h : AllSound s) : AllSound s.releaseEngine := by
  unfold State.releaseEngine
  split
  · exact h.withGranted none
  · exact h

theorem AllSound.engineBlock (h : AllSound s) (j : Job) : AllSound (s.engineBlock j) := by
  unfold State.engineBlock
  split
  · exact (h.clearBlocks _ _).withJobs _ _
  · dsimp only
    split
    · exact (h.chargeWords _ _ _).endJob
    · exact (h.chargeWords _ _ _).withJobs _ _

theorem AllSound.endEngineAccess (h : AllSound s) : AllSound s.endEngineAccess := by
  unfold State.endEngineAccess
  split
  · split
    · refine AllSound.grant (AllSound.withGranted ?_ none)
      split
      · exact h
      · exact h.engineBlock _
    · exact (h.withGranted none).grant
  · exact h.grant

theorem AllSound.writeAccess (h : AllSound s) (tag : Tag) (k : ImageId) (offset : Nat) (data : List Byte) (discard : Bool) :
    AllSound (s.writeAccess tag k offset data discard) := by
  have hstored (m : List Host.Cell) (l : List Nat) (n : Nat) :
      AllSound (State.countCorrected { s with store := m, lostBits := l, granted := none } k n) := by
    refine AllSound.modImage ?_ k
    exact AllSound.withGranted (h.of_keepsBut (withStore_keeps s m l) (by decide)) none
  have hcharged (b : Prop) [Decidable b] (m : List Host.Cell) (l : List Nat) (n : Nat) :
      AllSound (if b then (State.countCorrected { s with store := m, lostBits := l, granted := none } k n).damageImage k
        else State.countCorrected { s with store := m, lostBits := l, granted := none } k n) := by
    split
    · exact (hstored m l n).damageImage k
    · exact hstored m l n
  unfold State.writeAccess
  dsimp only
  split
  · refine AllSound.grant ?_
    split
    · exact (hcharged _ _ _ _).withPort _
    · exact ((hcharged _ _ _ _).withPort _).answer
  · exact ((hcharged _ _ _ _).withPort _).grant

end Sys2Proof.Machine.SlotSound
end

section
/-! PROOF. Every command keeps every slot sound, and so does a step of the time base; the reset state is sound. -/

namespace Sys2Proof.Machine.SlotSound

open Tables FanOut PowerBlock SlotActs Placement Inputs

variable {s t : State} {i j : SlotId} {tag : Tag} {p : Place} {x : Slot}

/-- The next state of an outcome has every slot sound. -/
def goesOnSound (out : Host.Outcome State Fault Refusal) : Prop := ∀ t, out = .next t → AllSound t

theorem goesOnSound_next (h : AllSound t) : goesOnSound (.next t) := fun _ ht => by cases ht; exact h

theorem goesOnSound_fault (r : Fault) : goesOnSound (.fault r) := fun _ h => by cases h

theorem goesOnSound_if {c : Prop} [Decidable c] (hs : AllSound s) (ht : c → AllSound t) :
    goesOnSound (.next (if c then t else s)) := by
  refine goesOnSound_next ?_
  split
  · next hc => exact ht hc
  · exact hs

/-! ### Requests -/

theorem AllSound.request (h : AllSound s) {run : State → State} (hr : AllSound (run s)) : AllSound (s.request run) := by
  unfold State.request
  split
  · exact hr
  · exact h

theorem request_sound (h : AllSound s) {α : Type} {kind : Byte} {body : Body α} {run : α → State → State}
    (hr : ∀ f, AllSound (run f s)) : goesOnSound (.next (s.requestWith tag kind body run)) := by
  refine goesOnSound_next (AllSound.request h ?_)
  split
  · exact h.answer
  · exact hr _

theorem AllSound.onSlot (h : AllSound s) {kind number : Byte} {run : SlotId → State} (hr : ∀ i, AllSound (run i)) :
    AllSound (s.onSlot tag kind number run) := by
  unfold State.onSlot
  split
  · exact h.answer
  · exact hr _

theorem AllSound.actOn {allows : Slot → Bool} {act : State → SlotId → State}
    (ha : ∀ s i, AllSound s → allows (s.slot i) = true → AllSound (act s i)) (l : List SlotId) (h : AllSound s) :
    AllSound (s.actOn allows act l).1 := by
  induction l generalizing s with
  | nil => exact h
  | cons i l ih =>
    unfold State.actOn
    split
    · next hi => exact ih (ha s i h hi)
    · exact ih h

theorem AllSound.control (h : AllSound s) {kind : Byte} {set : SlotSet} {mask : Half} {allows : Slot → Bool}
    {act : State → SlotId → State} (ha : ∀ s i, AllSound s → allows (s.slot i) = true → AllSound (act s i)) :
    AllSound (s.control tag kind set mask allows act) := by
  unfold State.control
  split
  · exact h.answer
  · exact (h.actOn ha _).answer

/-- An action of one slot whose result on the slot is sound. -/
theorem AllSound.acts {f : State → SlotId → State} {g : State → SlotId → Slot → Slot} {stops : Slot → Bool}
    (hf : ActsBy f g stops) (h : AllSound s) (hg : SoundSlot (place s i) (g s i (s.slot i))) : AllSound (f s i) :=
  h.of_slot (hf.acts s i).keeps (by decide) (fun j => by
    by_cases hj : j = i
    · rw [if_pos hj, hj, hf.slot]
    · rw [if_neg hj, hf.slot_ne s hj]) hg

/-- SLOT_CONTROL with an action whose result on each slot that allows it is sound. -/
theorem slotControl_sound (h : AllSound s) {body : Body SlotSet} {allows : Slot → Bool} {f : State → SlotId → State}
    {g : State → SlotId → Slot → Slot} {stops : Slot → Bool} (hf : ActsBy f g stops)
    (hg : ∀ s i x, SoundSlot (place s i) x → allows x = true → SoundSlot (place s i) (g s i x)) :
    goesOnSound (.next (s.slotControl tag body allows f)) :=
  request_sound h fun _ => h.control fun s i hs ha => hs.acts hf (hg s i _ (hs i) ha)

theorem SoundSlot.cycled (h : SoundSlot p x) (hx : inPlay x.state = true) (now : Count) (mask : BitVec 8) :
    SoundSlot p (Slot.raised
      { x.stopped .powerOff .recovering with restartCause := .host, offTimer := some ⟨now, x.profile.recoverOff⟩ } .recovery
      mask) :=
  { h.stopped hx .powerOff (dest := .recovering) rfl rfl with }

theorem powerOn_sound (h : AllSound s) (body : Body SlotSet) : goesOnSound (execPowerOn tag body s) :=
  slotControl_sound h powerOn_actsBy fun s i x hx ha => by
    have hst : x.state = .off := by simpa using ha
    have hcause : SoundSlot (place s i) { x with restartCause := .host } := { hx with }
    exact hcause.poweredUp (show x.state.powered = false by rw [hst]; rfl) (show inPlay x.state = true by rw [hst]; rfl) s.now

theorem powerOff_sound (h : AllSound s) (body : Body SlotSet) : goesOnSound (execPowerOff tag body s) :=
  slotControl_sound h powerOff_actsBy fun _ _ _ hx ha => hx.stopped (inPlay_of_powered ha) .powerOff rfl rfl

theorem cycle_sound (h : AllSound s) (body : Body SlotSet) : goesOnSound (execCycle tag body s) :=
  slotControl_sound h cycle_actsBy fun s i x hx ha => by
    refine hx.cycled ?_ s.now s.noticeMask
    rcases (Bool.or_eq_true _ _).mp ha with hpow | hoff
    · exact inPlay_of_powered hpow
    · rw [eq_of_beq hoff]; rfl

theorem resetSlot_sound (h : AllSound s) (body : Body SlotSet) : goesOnSound (execResetSlot tag body s) :=
  slotControl_sound h resetSlot_actsBy fun s _ _ hx ha => hx.resetBy (bne_iff_ne.mp ha) s.now

theorem clearFault_sound (h : AllSound s) (body : Body SlotSet) : goesOnSound (execClearFault tag body s) :=
  slotControl_sound h clearFault_actsBy fun s i _ hx ha => hx.faultCleared (eq_of_beq ha) (s.expectedCode i) s.now s.noticeMask

theorem disable_sound (h : AllSound s) (body : Body SlotSet) : goesOnSound (execDisable tag body s) :=
  slotControl_sound h disable_actsBy fun s _ _ hx ha => hx.disabledBy (bne_iff_ne.mp ha) s.noticeMask

theorem enable_sound (h : AllSound s) (body : Body SlotSet) : goesOnSound (execEnable tag body s) :=
  slotControl_sound h enable_actsBy fun s i _ hx ha => hx.enabledBy (bne_iff_ne.mp ha) (s.expectedCode i) s.now s.noticeMask

theorem pressKey_sound (h : AllSound s) (body : Body PressKeyFields) : goesOnSound (execPressKey tag body s) :=
  request_sound h fun _ => h.control fun _ i hs _ => hs.change i fun hx => { hx with }

theorem setProfile_sound (h : AllSound s) (body : Body ProfileFields) : goesOnSound (execSetProfile tag body s) :=
  request_sound h fun f => by
    split
    · exact h.answer
    split
    · exact h.answer
    · exact AllSound.answer (h.foldl (fun s i hs => hs.modSlot i ((hs i).writeProfile f)) _)

theorem querySlots_sound (h : AllSound s) (body : Body SlotSet) : goesOnSound (execQuerySlots tag body s) :=
  request_sound h fun _ => by split <;> exact h.answer

theorem measure_sound (h : AllSound s) (body : Body SlotSet) : goesOnSound (execMeasure tag body s) :=
  request_sound h fun _ => by split <;> exact h.answer

theorem malformedTransfer_sound (h : AllSound s) (bytes : List Byte) : goesOnSound (execMalformedTransfer bytes s) := by
  refine goesOnSound_next (h.request ?_)
  split
  · exact h.answer
  · exact h

/-! ### Tables and events -/

theorem AllSound.setGroup (h : AllSound s) (n : Nat) (g : Option Group) : AllSound (s.setGroup n g) :=
  h.of_keepsBut (setGroup_keeps s n g) (by decide)

theorem AllSound.withFixture (h : AllSound s) (v : Option (Vector Byte 24)) : AllSound { s with fixture := v } := h

theorem AllSound.withMask (h : AllSound s) (m : BitVec 8) : AllSound { s with noticeMask := m } := h

theorem defineGroup_sound (h : AllSound s) (body : Body GroupFields) : goesOnSound (execDefineGroup tag body s) :=
  request_sound h fun _ => by
    split
    · exact h.answer
    split
    · exact h.answer
    · exact (h.setGroup _ _).answer

theorem undefineGroup_sound (h : AllSound s) (body : Body GroupFields) : goesOnSound (execUndefineGroup tag body s) :=
  request_sound h fun _ => by
    split
    · exact h.answer
    · exact (h.setGroup _ _).answer

theorem setFixtureLoad_sound (h : AllSound s) (body : Body (Vector Byte 24)) : goesOnSound (execSetFixtureLoad tag body s) :=
  request_sound h fun codes => by
    split
    · exact h.answer
    split
    · exact h.answer
    · exact (h.withFixture (some codes)).answer

theorem setTranslation_sound (h : AllSound s) (body : Body TranslationFields) :
    goesOnSound (execSetTranslation tag body s) :=
  request_sound h fun f => by
    split
    · exact h.answer
    split
    · exact h.answer
    split
    · exact h.answer
    · next hlen _ =>
      have hle : f.pairs.length ≤ 8 := Nat.not_lt.mp hlen
      exact AllSound.answer (h.foldl (fun s i hs => hs.modSlot i { hs i with translation := hle }) _)

theorem readEvents_sound (h : AllSound s) (body : Body SlotSet) : goesOnSound (execReadEvents tag body s) :=
  request_sound h fun _ => by
    split
    · exact h.answer
    · refine AllSound.answer (h.foldl (fun s i hs => ?_) _)
      exact hs.modSlot i { hs i with }

theorem setNoticeMask_sound (h : AllSound s) (body : Body Half) : goesOnSound (execSetNoticeMask tag body s) :=
  request_sound h fun m => by
    split
    · exact h.answer
    · exact (h.withMask (m.setWidth 8)).answer.foldl (fun _ i hs => hs.noticeIfPending _ i) _

/-! ### Operations and reports -/

theorem cancel_sound (h : AllSound s) (body : Body Tag) : goesOnSound (execCancel tag body s) :=
  request_sound h fun _ => by
    split
    · exact h.answer
    split
    · exact (h.answer.cancelMembers _ _).complete _ _
    · exact h.answer

theorem append_sound (h : AllSound s) (i : SlotId) : goesOnSound (execAppend i s) := by
  refine goesOnSound_next ?_
  split
  · exact h.takeRequest i
  · exact h

theorem withdraw_sound (h : AllSound s) (i : SlotId) : goesOnSound (execWithdraw i s) := by
  refine goesOnSound_next ?_
  split
  · exact h.takeRequest i
  · exact h

theorem AllSound.popReport (h : AllSound s) (i : SlotId) : AllSound (s.popReport i) := h.change i fun hx => { hx with }

theorem startReport_sound (h : AllSound s) (i : SlotId) : goesOnSound (execStartReport i s) := by
  refine goesOnSound_next ?_
  split
  · exact (h.popReport i).modOp _
  · exact h

theorem resultReport_sound (h : AllSound s) (i : SlotId) : goesOnSound (execResultReport i s) := by
  refine goesOnSound_next ?_
  split
  · exact (h.popReport i).endMember _ i _ _
  · exact h

theorem windowExpiryReport_sound (h : AllSound s) (i : SlotId) : goesOnSound (execWindowExpiryReport i s) := by
  refine goesOnSound_next ?_
  split
  · exact (h.popReport i).endMember _ i _ _
  · exact h

theorem queueLimitReport_sound (h : AllSound s) (i : SlotId) : goesOnSound (execQueueLimitReport i s) := by
  refine goesOnSound_next ?_
  split
  · exact (h.popReport i).endMember _ i _ _
  · exact h

theorem dropReport_sound (h : AllSound s) (i : SlotId) : goesOnSound (execDropReport i s) := by
  refine goesOnSound_next ?_
  split
  · exact (h.popReport i).endMember _ i _ _
  · exact h

theorem streamDamageReport_sound (h : AllSound s) (i : SlotId) : goesOnSound (execStreamDamageReport i s) := by
  refine goesOnSound_next ?_
  split
  · exact (h.popReport i).endMember _ i _ _
  · exact h

/-! ### The image store -/

theorem imageDefine_sound (h : AllSound s) (body : Body ImageDefineFields) : goesOnSound (execImageDefine tag body s) :=
  request_sound h fun _ => by
    split
    · exact h.answer
    split
    · exact h.answer
    split
    · exact h.answer
    · exact ((h.modImage _).withJobs _ _).answer.grant

theorem imageWrite_sound (h : AllSound s) (body : Body ImageWriteFields) : goesOnSound (execImageWrite tag body s) :=
  request_sound h fun _ => by
    split
    · exact h.answer
    · exact h
    · exact ((h.noteAlone.modImage _).withPort _).grant

theorem imageCommit_sound (h : AllSound s) (body : Body ImageCommitFields) : goesOnSound (execImageCommit tag body s) :=
  request_sound h fun _ => by
    split
    · exact h.answer
    split
    · exact ((h.modImage _).withJobs _ _).answer.grant
    · exact h.answer

theorem imageRelease_sound (h : AllSound s) (body : Body Byte) : goesOnSound (execImageRelease tag body s) :=
  request_sound h fun _ => by
    split
    · exact h.answer
    split
    · exact h.answer
    split
    · exact h.answer
    · exact (h.modImage _).answer

theorem imageWriteAccessDone_sound (h : AllSound s) (one two : List Nat) :
    goesOnSound (execImageWriteAccessDone one two s) := by
  have ht : AllSound (if s.granted = some .writePath then s else s.endEngineAccess) := by
    split
    · exact h
    · exact h.endEngineAccess
  unfold execImageWriteAccessDone
  dsimp only
  generalize (if s.granted = some .writePath then s else s.endEngineAccess) = t at ht ⊢
  split
  · split
    · exact goesOnSound_fault _
    · exact goesOnSound_next ((ht.disturb _ _ _ _).writeAccess _ _ _ _ _)
  · exact goesOnSound_next h

theorem streamChunkRead_sound (h : AllSound s) (i : SlotId) (one two : List Nat) :
    goesOnSound (execStreamChunkRead i one two s) := by
  have ht : AllSound (if s.granted = some .engine then s.endEngineAccess else s) := by
    split
    · exact h.endEngineAccess
    · exact h
  unfold execStreamChunkRead
  dsimp only
  generalize (if s.granted = some .engine then s.endEngineAccess else s) = t at ht ⊢
  split
  · split
    · split
      · exact goesOnSound_fault _
      · exact goesOnSound_next (((((ht.withGranted none).disturb _ _ _ _).chargeRead _ _).deliver i _ _).slotWork i)
    · exact goesOnSound_next h
  · exact goesOnSound_next h

theorem clearingJobEnd_sound (h : AllSound s) : goesOnSound (execClearingJobEnd s) := by
  refine goesOnSound_next ?_
  split
  · split
    · exact (((h.grant.clearBlocks _ _).endJob.releaseEngine).modImage _).grant
    · exact h
  · exact h

theorem verificationJobEnd_sound (h : AllSound s) (one two : List Nat) : goesOnSound (execVerificationJobEnd one two s) := by
  unfold execVerificationJobEnd
  dsimp only
  split
  · split
    · split
      · exact goesOnSound_fault _
      · refine goesOnSound_next (AllSound.grant ?_)
        split
        · exact ((h.grant.disturb _ _ one two).chargeWords _ _ _).endJob.releaseEngine
        · exact ((h.grant.disturb _ _ one two).chargeWords _ _ _).endJob.releaseEngine.modImage _
    · exact goesOnSound_next h
  · exact goesOnSound_next h

/-! ### The console and the bridge -/

theorem readConsole_sound (h : AllSound s) (body : Body Byte) : goesOnSound (execReadConsole tag body s) :=
  request_sound h fun _ => h.onSlot fun i => by
    split
    · exact h.answer
    · exact AllSound.answer (h.change i fun hx => hx.ringed (Nat.zero_le _) false)

theorem openBridge_sound (h : AllSound s) (body : Body OpenBridgeFields) : goesOnSound (execOpenBridge tag body s) :=
  request_sound h fun _ => by
    split
    · exact h.answer
    refine h.onSlot fun i => ?_
    split
    · exact h.answer
    · next hst =>
      split
      · exact h.withPort _
      · next he => exact (h.openBridgeOn i _ (not_not.mp hst) (by simpa using he)).answer

theorem bridgeData_sound (h : AllSound s) (body : Body BridgeDataFields) : goesOnSound (execBridgeData tag body s) :=
  request_sound h fun f => by
    split
    · exact h.answer
    split
    · exact h.answer
    refine h.onSlot fun i => ?_
    dsimp only
    split
    · exact h.answer
    split
    · exact h.answer
    · next hroom =>
      have hlen : ((s.slot i).output ++ f.data).length ≤ Config.ringBytes := by
        have := output_le (h i)
        rw [List.length_append]
        omega
      exact AllSound.answer (h.change i fun hx => (hx.setOutput hlen).restartIdle s.now)

theorem closeBridge_sound (h : AllSound s) (body : Body Byte) : goesOnSound (execCloseBridge tag body s) :=
  request_sound h fun _ => h.onSlot fun i => by
    split
    · exact h.answer
    · next hst => exact (h.leaveBridge i (not_not.mp hst)).answer

theorem bridgeIdleTimerExpiry_sound (h : AllSound s) (i : SlotId) : goesOnSound (execBridgeIdleTimerExpiry i s) :=
  goesOnSound_if h fun hc => by
    simp only [Bool.and_eq_true, decide_eq_true_eq] at hc
    exact h.leaveBridge i hc.1

theorem breakEnd_sound (h : AllSound s) (i : SlotId) : goesOnSound (execBreakEnd i s) := by
  refine goesOnSound_if h fun _ => h.change i fun hx => SoundSlot.sendsAs ?_ (Slot.transmit_sendsAs _)
  exact { hx with }

theorem rawByteReceived_sound (h : AllSound s) (i : SlotId) (byte : Byte) : goesOnSound (execRawByteReceived i byte s) := by
  have hpushed : AllSound (s.modSlot i fun x => (x.pushByte byte).restartIdle s.now) :=
    h.change i fun hx => (hx.pushByte byte).restartIdle s.now
  refine goesOnSound_next ?_
  split
  · exact hpushed.buildBridgeOut i _
  split
  · exact h.takeByte i byte
  · exact h

theorem bridgeOutGatheringExpiry_sound (h : AllSound s) (i : SlotId) : goesOnSound (execBridgeOutGatheringExpiry i s) :=
  goesOnSound_if h fun _ => by
    split
    · exact h.queueBridgeOut i
    · exact h.change i fun hx => hx.setGathering none

theorem bridgeByteSent_sound (h : AllSound s) (i : SlotId) : goesOnSound (execBridgeByteSent i s) := by
  refine goesOnSound_if h fun _ => h.modSlot i (SoundSlot.restartIdle ((h i).setOutput ?_) s.now)
  rw [List.length_drop]
  exact (Nat.sub_le _ _).trans (output_le (h i))

/-! ### The port and the uplink -/

theorem hostPortConfigured_sound (h : AllSound s) : goesOnSound (execHostPortConfigured s) :=
  goesOnSound_next (h.withPort _).arbitrate

theorem AllSound.detachOperations (h : AllSound s) : AllSound s.detachOperations := by
  refine AllSound.withOps (h.foldl (fun t o ht => ?_) _) []
  split
  · exact ht.foldl (fun _ i hu => hu.ask i _) _
  · exact ht

theorem AllSound.detachPort (h : AllSound s) : AllSound s.detachPort := by
  unfold State.detachPort
  refine AllSound.foldl (fun t i ht => ?_) _ (AllSound.detachOperations ?_)
  · split
    · next hst => exact ht.leaveBridge i hst
    · exact ht
  · exact AllSound.modSlots (s := { s with
      uplink := Uplink.empty
      port := { configured := false, inProgress := s.port.inProgress.bind InProgress.detached, intakeHold := false } }) h
      fun _ _ hx => { hx with }

theorem hostPortDetach_sound (h : AllSound s) : goesOnSound (execHostPortDetach s) := goesOnSound_if h fun _ => h.detachPort

/-! ### The resets (R29, R193) -/

theorem ranges_initial (st : SlotState) (c : Nat) (contact : Bool) (lines : Byte) :
    Ranges c (Slot.initial st c contact lines) where
  score := show 48 ≤ Config.scoreMax by decide
  rate := Nat.zero_le _
  target _ he := by cases he
  pendingCeiling _ hv := by cases hv
  attempts := Nat.zero_le _
  queue := Nat.zero_le _
  history := Nat.zero_le _
  samples _ hv := absurd hv List.not_mem_nil
  budget := Nat.zero_le _
  unpowered _ := rfl
  ring := Nat.zero_le _
  output _ hb := by cases hb
  credit _ hr := by cases hr
  further _ hr := by cases hr
  translation := Nat.zero_le _
  profile := by
    refine ⟨le_rfl, ?_⟩
    simp [Slot.initial, Profile.default]

theorem works_initial {st : SlotState} (hst : st.powered = false) (c : Nat) (contact : Bool) (lines : Byte) :
    Works (Slot.initial st c contact lines) :=
  works_of_idle hst.symm rfl rfl rfl (not_working hst) (by rintro rfl; cases hst)

/-- A slot at its power-on values is sound in the state its place gives it (R2, R7, R29). -/
theorem soundSlot_initial (c : Nat) (isFitted isOpen contact : Bool) (lines : Byte) :
    SoundSlot ⟨c, isFitted, isOpen⟩
      (Slot.initial (if !isFitted then .unfitted else if isOpen then .inhibited else .vacant) c contact lines) := by
  cases isFitted with
  | false => exact { ranges_initial _ c contact lines, works_initial (st := .unfitted) rfl c contact lines with
                     unfitted := ⟨fun _ => rfl, fun _ => rfl⟩, inhibited := fun hf => by cases hf }
  | true =>
    cases isOpen with
    | false => exact { ranges_initial _ c contact lines, works_initial (st := .vacant) rfl c contact lines,
                       placed_in_play (p := ⟨c, true, false⟩) (x := Slot.initial .vacant c contact lines) rfl rfl rfl with }
    | true => exact { ranges_initial _ c contact lines, works_initial (st := .inhibited) rfl c contact lines,
                      placed_inhibited (p := ⟨c, true, true⟩) (x := Slot.initial .inhibited c contact lines) rfl rfl rfl with }

theorem powerUp_allSound (s : State) (banksHigh ceilingHigh : Bool) : AllSound (s.powerUp banksHigh ceilingHigh) := by
  intro i
  have hplace : place (s.powerUp banksHigh ceilingHigh) i =
      ⟨if ceilingHigh then 4 else 3, banksHigh || decide (i.val < 12),
        if i.val < 12 then s.interlockA.input else (banksHigh && s.interlockB.input)⟩ := by
    rw [place_congr (powerUp_keeps s banksHigh ceilingHigh) (by decide) (by decide), place, blank_drawerOpen, fitted_iff]
    rfl
  rw [hplace, slot_powerUp]
  exact { soundSlot_initial (if ceilingHigh then 4 else 3) _ _ (s.slot i).contact (s.slot i).nestLines with }

/-- A slot after a RESTART is sound at its place (R193). -/
theorem soundSlot_restarted (x : Slot) (p : Place) (now : Count) :
    SoundSlot p (Restarting.restarted x p.fitted p.isOpen p.ceiling now) := by
  obtain ⟨c, isFitted, isOpen⟩ := p
  have hinitial := soundSlot_initial c isFitted isOpen x.contact x.nestLines
  unfold Restarting.restarted
  dsimp only
  cases isFitted with
  | false => exact hinitial
  | true =>
    cases isOpen with
    | true => exact { hinitial with }
    | false =>
      rw [if_neg Bool.false_ne_true.symm, if_neg Bool.false_ne_true]
      split
      · have hup := hinitial.poweredUp rfl rfl now
        exact { hup with }
      · exact { hinitial with }

theorem atRestart_taken (s : State) (i : SlotId) : s.sweep.drawerOpen i = s.drawerOpen i := by
  unfold State.drawerOpen
  cases bankOf i <;> rfl

theorem restartEffects_allSound (s : State) : AllSound s.restartEffects := by
  intro i
  have hplace : place s.restartEffects i = place s i := by
    rw [place_congr (Restarting.restartEffects_keeps s) (by decide) (by decide), place, atRestart_taken]
    rfl
  rw [hplace, Restarting.slot_restartEffects]
  exact soundSlot_restarted (s.slot i) (place s i) s.now

theorem receiptSent_sound (h : AllSound s) : goesOnSound (execReceiptSent s) := by
  refine goesOnSound_next ?_
  split
  · refine AllSound.arbitrate ?_
    split
    · exact restartEffects_allSound _
    · exact h.withUplink _
  · exact h

theorem gatherReportSent_sound (h : AllSound s) : goesOnSound (execGatherReportSent s) := by
  refine goesOnSound_next ?_
  split
  · refine AllSound.arbitrate ?_
    exact h
  · exact h

theorem bridgeOutSent_sound (h : AllSound s) : goesOnSound (execBridgeOutSent s) := by
  refine goesOnSound_next ?_
  split
  · refine AllSound.arbitrate (AllSound.buildBridgeOut ?_ _ true)
    exact (h.withUplink _).change _ fun hx => { hx with }
  · exact h

theorem noticeBegun_sound (h : AllSound s) : goesOnSound (execNoticeBegun s) := by
  refine goesOnSound_next ?_
  split
  · split
    · exact (h.withUplink _).change _ fun hx => { hx with }
    · exact h
  · exact h

/-! ### Inputs and timers -/

theorem AllSound.takeAttach (h : AllSound s) (i : SlotId) : AllSound (s.takeAttach i) :=
  h.of_slot (takeAttach_keeps s i) (by decide) (fun j => by
    by_cases hj : j = i
    · rw [if_pos hj, hj, slot_takeAttach]
    · rw [if_neg hj, (takeAttach_acts s i).slotsBut_one j hj]) ((h i).attached (s.expectedCode i) s.now s.noticeMask)

theorem presenceContactChange_sound (h : AllSound s) (i : SlotId) (seated : Bool) (lines : Byte) :
    goesOnSound (execPresenceContactChange i seated lines s) :=
  goesOnSound_next (h.modSlot i { h i with })

theorem presenceDebounceExpiry_sound (h : AllSound s) (i : SlotId) : goesOnSound (execPresenceDebounceExpiry i s) := by
  have hsettled : AllSound (s.modSlot i fun x => { x with present := x.contact, debounce := none }) :=
    h.change i fun hx => { hx with }
  have hst : ((s.modSlot i fun x => { x with present := x.contact, debounce := none }).slot i).state = (s.slot i).state := by
    rw [State.slot_modSlot_same]
  refine goesOnSound_next ?_
  split
  · next hf =>
    simp only [Bool.and_eq_true] at hf
    dsimp only
    split
    · exact hsettled
    split
    · exact hsettled.takeAttach i
    · rw [takeDetach_eq]
      split
      · next hne =>
        refine (hsettled.raise i .detach).stopSlot i .detached rfl rfl ?_
        have hraised : (((s.modSlot i fun x => { x with present := x.contact, debounce := none }).raise i .detach).slot
            i).state = (s.slot i).state := by
          rw [slot_raise, if_pos rfl]
          exact hst
        rw [hraised]
        refine inPlay_iff.mpr ⟨fun he => ?_, fun he => hne.2 (hst.trans he)⟩
        have hnot := (h i).unfitted.mp he
        exact Bool.false_ne_true (hnot.symm.trans hf.1)
      · exact hsettled.raise i .detach
  · exact h

theorem interlockInputChange_sound (h : AllSound s) (bank : Bank) (isOpen : Bool) :
    goesOnSound (execInterlockInputChange bank isOpen s) := by
  refine goesOnSound_next fun i => ?_
  rw [State.slot_setInterlock]
  have hplace : ∀ k : Interlock, k.taken = (s.interlock bank).taken → place (s.setInterlock bank k) i = place s i := by
    intro k hk
    unfold place State.drawerOpen
    rw [State.setInterlock_straps, interlock_setInterlock]
    split
    · next hb => rw [hk, hb]
    · rfl
  rw [hplace]
  · exact h i
  · rfl

/-- The slots of the bank take the new level; the others keep theirs (R7 to R9). -/
theorem interlockSettleExpiry_sound (h : AllSound s) (bank : Bank) : goesOnSound (execInterlockSettleExpiry bank s) := by
  by_cases hd : dueSome s.now (s.interlock bank).settling = true
  · have hexec := interlockSettle_taken hd
    change execInterlockSettleExpiry bank s = _ at hexec
    rw [hexec]
    refine goesOnSound_next fun i => ?_
    set k := s.interlock bank with hk
    set u := s.setInterlock bank { k with taken := k.input, settling := none } with hu
    have hmoved := moveDrawer_actsBy k.input
    have hkeeps := (hmoved.foldl (bankSlots_nodup bank) u).1.keeps
    rw [place_congr hkeeps (by decide) (by decide), hmoved.slot_foldl (bankSlots_nodup bank), hu, State.slot_setInterlock,
      ← hu]
    have hopen : u.drawerOpen i = if bankOf i = bank then k.input else s.drawerOpen i := by
      rw [State.drawerOpen, hu, interlock_setInterlock]
      split
      · rfl
      · rfl
    have hplace : place u i = { place s i with isOpen := if bankOf i = bank then k.input else s.drawerOpen i } := by
      rw [place, hopen, hu, State.setInterlock_straps]
      rfl
    rw [hplace]
    by_cases hi : bankOf i = bank
    · rw [if_pos ((mem_bankSlots bank i).mpr hi), if_pos hi]
      by_cases hf : s.straps.fitted i = true
      · exact SoundSlot.drawerMoved (p := { place s i with isOpen := k.input }) (o := s.drawerOpen i) (h i) hf _ _ _
      · have hfit : s.straps.fitted i = false := by simpa using hf
        have hst : (s.slot i).state = .unfitted := (h i).unfitted.mpr hfit
        have hsame (e : Option Byte) : drawerMoved k.input (s.slot i) e u.now u.noticeMask = s.slot i := by
          unfold drawerMoved
          simp [inhibits, released, hst]
        rw [hsame]
        exact { h i with inhibited := fun hfit' => absurd hfit' hf }
    · rw [if_neg (mt (mem_bankSlots bank i).mp hi), if_neg hi]
      exact h i
  · change goesOnSound (.next (if dueSome s.now (s.interlock bank).settling = true then _ else s))
    rw [if_neg hd]
    exact goesOnSound_next h

theorem settleTimerExpiry_sound (h : AllSound s) (i : SlotId) : goesOnSound (execSettleTimerExpiry i s) :=
  goesOnSound_if h fun hc => by
    simp only [Bool.and_eq_true, decide_eq_true_eq] at hc
    obtain ⟨hst, -⟩ := hc
    refine h.modSlot i ?_
    have hbooting := (h i).booting hst
    dsimp only
    split
    · exact { hbooting with }
    · exact { hbooting with }

/-- The recovery decision on a slot in play, of which only the ranges and the place are asked (R13). -/
theorem AllSound.recoveryDecision {u : State} (h : AllSound s) (i : SlotId) (c : FaultCause) (d : Half)
    (hk : keepsBut [.port, .uplink, .images, .slots] s u) (hslots : ∀ j, j ≠ i → u.slot j = s.slot j)
    (hr : Ranges (place s i).ceiling (u.slot i)) (hp : Placed (place s i) (u.slot i))
    (hx : inPlay (u.slot i).state = true) : AllSound (u.recoveryDecision i c d) := by
  refine h.of_slot (hk.trans (recoveryDecision_keeps u i c d)) (by decide) (i := i) (fun j => ?_)
    (soundSlot_recoveryDecision hr hp hx c d u.now u.noticeMask)
  by_cases hj : j = i
  · rw [if_pos hj, hj, slot_recoveryDecision_same]
  · rw [if_neg hj, slot_recoveryDecision, if_neg hj, hslots j hj]

theorem allowanceEnded_sound (h : AllSound s) (i : SlotId) (kind : AllowanceKind) : AllSound (s.allowanceEnded i kind) := by
  unfold State.allowanceEnded
  split
  · split
    · next hst =>
      have hslot : (s.modSlot i fun x => { x with allowance := none }).slot i = { s.slot i with allowance := none } :=
        State.slot_modSlot_same s i _
      refine h.recoveryDecision i _ _ ((modSlot_keeps s i _).mono (by decide)) (fun j hj => State.slot_modSlot_ne s _ hj)
        ?_ ?_ ?_
      · rw [hslot]; exact { (h i).toRanges with }
      · rw [hslot]; exact (h i).toPlaced.same rfl rfl
      · rw [hslot]; exact (congrArg inPlay hst).trans rfl
    · exact h
  · exact h

theorem abortWaitExpiry_sound (h : AllSound s) (i : SlotId) : goesOnSound (execAbortWaitExpiry i s) :=
  goesOnSound_if h fun hc => by
    simp only [Bool.and_eq_true, decide_eq_true_eq] at hc
    obtain ⟨hst, -⟩ := hc
    have hslot : ((s.releaseReference i).modSlot i fun x => { x with inFlight := none, abortWait := none }).slot i =
        { s.slot i with inFlight := none, abortWait := none } := by
      rw [State.slot_modSlot_same, slot_releaseReference, if_pos rfl]
      obtain ⟨f, hx, -, -⟩ := (s.slot i).released_with
      rw [hx]
    refine h.recoveryDecision i _ _
      (((releaseReference_keeps s i).mono (by decide)).step (modSlot_keeps _ i _) (by decide)) (fun j hj => ?_) ?_ ?_ ?_
    · rw [State.slot_modSlot_ne _ _ hj, slot_releaseReference, if_neg hj]
    · rw [hslot]; exact { (h i).toRanges with credit := fun _ hr => by cases hr }
    · rw [hslot]; exact (h i).toPlaced.same rfl rfl
    · rw [hslot]; exact (congrArg inPlay hst).trans rfl

theorem recoveryOffTimerExpiry_sound (h : AllSound s) (i : SlotId) : goesOnSound (execRecoveryOffTimerExpiry i s) :=
  goesOnSound_if h fun hc => by
    simp only [Bool.and_eq_true, decide_eq_true_eq] at hc
    obtain ⟨hst, -⟩ := hc
    exact h.modSlot i ((h i).poweredUp (by rw [hst]; rfl) (by rw [hst]; rfl) s.now)

theorem keyPressExpiry_sound (h : AllSound s) (i : SlotId) : goesOnSound (execKeyPressExpiry i s) :=
  goesOnSound_if h fun _ => h.change i fun hx => { hx with }

theorem blankingWindowExpiry_sound (h : AllSound s) (i : SlotId) : goesOnSound (execBlankingWindowExpiry i s) :=
  goesOnSound_if h fun _ => h.change i fun hx => { hx with }

theorem currentSample_sound (h : AllSound s) (i : SlotId) (milliamps : Nat) :
    goesOnSound (execCurrentSample i milliamps s) :=
  goesOnSound_if h fun hc => by
    obtain ⟨hvbus, -⟩ := (Bool.and_eq_true _ _).mp hc
    exact h.modSlot i ((h i).takeSample hvbus s.now (Nat.min_le_right _ _))

theorem faultRequest_sound (h : AllSound s) (i : SlotId) : goesOnSound (execFaultRequest i s) := by
  refine goesOnSound_next ?_
  split
  · exact h
  · next r rest _ =>
    have hpopped : AllSound (s.modSlot i fun x => { x with faultRequests := rest }) := h.change i fun hx => { hx with }
    unfold State.takeFaultRequest
    dsimp only
    split
    · next hc => exact hpopped.enterFault i _ _ (inPlay_of_powered ((Bool.and_eq_true _ _).mp hc).1)
    split
    · exact hpopped.change i SoundSlot.countFurther
    · exact hpopped

/-! ### The slot link and the deadlines -/

theorem formatError_sound (h : AllSound s) (i : SlotId) (f : Frame) : goesOnSound (execFormatError i f s) := by
  refine goesOnSound_next ?_
  split
  · exact h
  · exact h.receive i f _ (fun _ ht => ht) fun _ ht => ht

theorem receiverStallExpiry_sound (h : AllSound s) (i : SlotId) : goesOnSound (execReceiverStallExpiry i s) :=
  goesOnSound_if h fun _ => h.crcError i

theorem sequenceErrorFrame_sound (h : AllSound s) (i : SlotId) (seq : Byte) :
    goesOnSound (execSequenceErrorFrame i seq s) :=
  goesOnSound_if h fun hc => by
    obtain ⟨hst, -⟩ := (Bool.and_eq_true _ _).mp hc
    have hhunting : AllSound (s.modSlot i Slot.hunt) := h.change i SoundSlot.hunt
    dsimp only
    split
    · exact hhunting
    · refine hhunting.sequenceError i seq ?_
      rw [State.slot_modSlot_same]
      exact hst

theorem rateExchangeWaitExpiry_sound (h : AllSound s) (i : SlotId) : goesOnSound (execRateExchangeWaitExpiry i s) := by
  refine goesOnSound_next ?_
  split
  · next e he =>
    obtain ⟨hex, hst⟩ : (s.slot i).link.exchange = some e ∧ (s.slot i).state.framed = true := by
      unfold Slot.dueExchange at he
      split at he
      · next q hq =>
        split at he
        · next hc =>
          cases he
          exact ⟨hq, ((Bool.and_eq_true _ _).mp hc).1⟩
        · cases he
      · cases he
    split
    · next hp => exact h.becomeReady i ((h i).boot e hex hp)
    · exact h.enterFault i _ _ (inPlay_of_powered (powered_of_framed hst))
  · exact h

/-- A member that ends from inside the device: its report, then ABORTING (R51). -/
theorem AllSound.abortWith (h : AllSound s) (i : SlotId) (body : ReportBody) (hi : (s.slot i).inFlight.isSome = true) :
    AllSound (s.abortWith i body) := by
  refine AllSound.enterAborting (h.modSlot i { h i with }) i ?_
  rw [State.slot_modSlot_same]
  exact hi

theorem damageStop_sound (h : AllSound s) (i : SlotId) : goesOnSound (execDamageStop i s) := by
  refine goesOnSound_next ?_
  split
  · exact h
  · next d rest _ =>
    have hpopped : AllSound (s.modSlot i fun x => { x with damageStops := rest }) := h.change i fun hx => { hx with }
    dsimp only
    split
    · next hs =>
      refine hpopped.abortWith i _ ?_
      rw [State.slot_modSlot_same]
      refine (h i).inFlight.trans ?_
      rw [eq_of_beq ((Bool.and_eq_true _ _).mp hs).1]
      rfl
    · exact hpopped

theorem memberWindowExpiry_sound (h : AllSound s) (i : SlotId) : goesOnSound (execMemberWindowExpiry i s) :=
  goesOnSound_if h fun hc => by
    simp only [Bool.and_eq_true, Bool.or_eq_true, decide_eq_true_eq] at hc
    obtain ⟨hst, -⟩ := hc
    refine h.abortWith i _ ((h i).inFlight.trans ?_)
    rcases hst with hst | hst <;> rw [hst] <;> rfl

theorem queueLimitExpiry_sound (h : AllSound s) (i : SlotId) : goesOnSound (execQueueLimitExpiry i s) := by
  refine goesOnSound_next ?_
  split
  · refine AllSound.slotWork (h.modSlot i ?_) i
    have hlen : ((s.slot i).queue.eraseP fun e => due s.now e.limit).length ≤ Config.queueDepth :=
      List.length_eraseP_le.trans (h i).queue
    exact { (h i).queued hlen with }
  · exact h

/-! ### Every command and the time base -/

theorem exec_sound (h : AllSound s) (c : Instr) : goesOnSound (exec c s) := by
  cases c with
  | powerOnReset banks ceiling => exact goesOnSound_next (powerUp_allSound s banks ceiling)
  | hostPortConfigured => exact hostPortConfigured_sound h
  | hostPortDetach => exact hostPortDetach_sound h
  | malformedTransfer bytes => exact malformedTransfer_sound h bytes
  | identify tag body => exact request_sound h fun _ => h.answer
  | restart tag body => exact request_sound h fun _ => (h.withPort _).answer
  | setProfile tag body => exact setProfile_sound h body
  | powerOn tag body => exact powerOn_sound h body
  | powerOff tag body => exact powerOff_sound h body
  | cycle tag body => exact cycle_sound h body
  | resetSlot tag body => exact resetSlot_sound h body
  | clearFault tag body => exact clearFault_sound h body
  | disable tag body => exact disable_sound h body
  | enable tag body => exact enable_sound h body
  | querySlots tag body => exact querySlots_sound h body
  | defineGroup tag body => exact defineGroup_sound h body
  | undefineGroup tag body => exact undefineGroup_sound h body
  | setFixtureLoad tag body => exact setFixtureLoad_sound h body
  | setFixtureClear tag body => exact request_sound h fun _ => (h.withFixture none).answer
  | setTranslation tag body => exact setTranslation_sound h body
  | direct tag body => exact request_sound h fun f => h.operate tag _ f.op _
  | push tag body => exact request_sound h fun f => h.operate tag _ f.op _
  | cancel tag body => exact cancel_sound h body
  | queryOperations tag body => exact request_sound h fun _ => h.answer
  | imageDefine tag body => exact imageDefine_sound h body
  | imageWrite tag body => exact imageWrite_sound h body
  | imageWriteAccessDone one two => exact imageWriteAccessDone_sound h one two
  | imageCommit tag body => exact imageCommit_sound h body
  | imageRelease tag body => exact imageRelease_sound h body
  | imageQuery tag body => exact request_sound h fun _ => h.answer
  | measure tag body => exact measure_sound h body
  | pressKey tag body => exact pressKey_sound h body
  | readConsole tag body => exact readConsole_sound h body
  | openBridge tag body => exact openBridge_sound h body
  | bridgeData tag body => exact bridgeData_sound h body
  | closeBridge tag body => exact closeBridge_sound h body
  | readEvents tag body => exact readEvents_sound h body
  | setNoticeMask tag body => exact setNoticeMask_sound h body
  | receiptSent => exact receiptSent_sound h
  | gatherReportSent => exact gatherReportSent_sound h
  | bridgeOutSent => exact bridgeOutSent_sound h
  | noticeBegun => exact noticeBegun_sound h
  | presenceContactChange i seated lines => exact presenceContactChange_sound h i seated lines
  | presenceDebounceExpiry i => exact presenceDebounceExpiry_sound h i
  | interlockInputChange bank isOpen => exact interlockInputChange_sound h bank isOpen
  | interlockSettleExpiry bank => exact interlockSettleExpiry_sound h bank
  | settleTimerExpiry i => exact settleTimerExpiry_sound h i
  | bootAllowanceExpiry i => exact goesOnSound_next (allowanceEnded_sound h i .boot)
  | resyncAllowanceExpiry i => exact goesOnSound_next (allowanceEnded_sound h i .resync)
  | recoveryOffTimerExpiry i => exact recoveryOffTimerExpiry_sound h i
  | hello i detector => exact goesOnSound_next (h.receive i _ detector (fun _ ht => ht) fun _ ht => ht)
  | linkAck i => exact goesOnSound_next (h.receive i _ _ (fun _ ht => ht) fun _ ht => ht.takeLinkAck i _)
  | rateExchangeWaitExpiry i => exact rateExchangeWaitExpiry_sound h i
  | result i => exact goesOnSound_next (h.receive i _ _ (fun _ ht => ht) fun _ ht => ht.takeResult i _ _)
  | text i => exact goesOnSound_next (h.receive i _ _ (fun _ ht => ht.appendText i _) fun _ ht => ht.appendText i _)
  | streamCredit i => exact goesOnSound_next (h.receive i _ _ (fun _ ht => ht) fun _ ht => ht.takeCredit i _)
  | formatError i f => exact formatError_sound h i f
  | crcError i => exact goesOnSound_next (h.crcError i)
  | receiverStallExpiry i => exact receiverStallExpiry_sound h i
  | linkFrameSent i => exact goesOnSound_next (h.frameSent i _ fun hx => hx.waitStarts s.now)
  | abortFrameSent i => exact goesOnSound_next (h.frameSent i _ fun hx => hx.startAbortWait s.now)
  | streamOpenSent i => exact goesOnSound_next (h.frameSent i _ SoundSlot.openStream)
  | streamDataSent i => exact goesOnSound_next (h.frameSent i _ SoundSlot.chunkSent)
  | streamChunkRead i one two => exact streamChunkRead_sound h i one two
  | damageStop i => exact damageStop_sound h i
  | memberWindowExpiry i => exact memberWindowExpiry_sound h i
  | queueLimitExpiry i => exact queueLimitExpiry_sound h i
  | abortWaitExpiry i => exact abortWaitExpiry_sound h i
  | keyPressExpiry i => exact keyPressExpiry_sound h i
  | blankingWindowExpiry i => exact blankingWindowExpiry_sound h i
  | currentSample i milliamps => exact currentSample_sound h i milliamps
  | faultRequest i => exact faultRequest_sound h i
  | bridgeIdleTimerExpiry i => exact bridgeIdleTimerExpiry_sound h i
  | breakEnd i => exact breakEnd_sound h i
  | rawByteReceived i byte => exact rawByteReceived_sound h i byte
  | bridgeOutGatheringExpiry i => exact bridgeOutGatheringExpiry_sound h i
  | bridgeByteSent i => exact bridgeByteSent_sound h i
  | clearingJobEnd => exact clearingJobEnd_sound h
  | verificationJobEnd one two => exact verificationJobEnd_sound h one two
  | append i => exact append_sound h i
  | withdraw i => exact withdraw_sound h i
  | startReport i => exact startReport_sound h i
  | resultReport i => exact resultReport_sound h i
  | windowExpiryReport i => exact windowExpiryReport_sound h i
  | queueLimitReport i => exact queueLimitReport_sound h i
  | dropReport i => exact dropReport_sound h i
  | streamDamageReport i => exact streamDamageReport_sound h i
  | sequenceErrorFrame i seq => exact sequenceErrorFrame_sound h i seq

theorem AllSound.tick (h : AllSound s) : AllSound s.tick := by
  unfold State.tick
  split
  · exact h
  · refine AllSound.modSlots (s := { s with now := s.now + 1 }) h fun i x hx => ?_
    refine SoundSlot.sendsAs ?_ (Slot.lineStep_sendsAs _)
    split
    · exact { hx with }
    · exact hx

/-- Settles O57: a step of the time base changes what the transmitters hold and the samples owed, and every command leaves
every slot sound. -/
theorem stepKeepsSlotsSound : Obligations.StepKeepsSlotsSound := by
  intro s t hs hstep
  rw [slotsSound_iff] at hs ⊢
  unfold step at hstep
  split at hstep
  · cases hstep
    exact hs.tick
  · next c rest _ =>
    have hrest : AllSound { s with pending := rest } := hs
    exact exec_sound hrest c t hstep

end Sys2Proof.Machine.SlotSound
end

section
/-! PROOF. The reset state: the values the spec gives it, and every condition on a state of a run (R29, R194). -/

namespace Sys2Proof.Machine.ResetState

open Placement SlotSound ImageStore UplinkQueues

theorem slot_reset (i : SlotId) : State.reset.slot i = Slot.initial .vacant 4 false 0 := Vector.getElem_replicate i.isLt

theorem image_reset (k : ImageId) : State.reset.image k = Image.initial := Vector.getElem_replicate k.isLt

/-- Groups 1 to 31 are UNDEFINED (R56). -/
theorem group_reset {n : Nat} (h1 : 1 ≤ n) (h31 : n ≤ 31) : State.reset.group n = none := by
  have hgroups : State.reset.groups = Vector.replicate 31 none := rfl
  have hlt : n - 1 < 31 := by omega
  rw [State.group, if_neg (by omega), hgroups, Vector.getElem?_replicate, if_pos hlt]
  rfl

/-- Settles O3: each table's entry is the one its vector repeats. -/
theorem resetHoldsTheSpecValues : Obligations.ResetHoldsTheSpecValues := by
  refine ⟨rfl, rfl, rfl, rfl, fun n h1 h31 => group_reset h1 h31, rfl, rfl, rfl, rfl, rfl, rfl, rfl, rfl, fun k => ?_,
    fun i => ?_⟩
  · rw [image_reset]
    exact ⟨rfl, rfl, rfl⟩
  · rw [slot_reset]
    exact ⟨rfl, rfl, rfl, rfl, rfl, rfl, rfl, rfl, rfl, rfl, rfl, rfl, rfl, rfl, rfl, rfl, rfl, rfl, rfl, rfl, rfl, rfl, rfl,
      rfl⟩

theorem place_reset (i : SlotId) : place State.reset i = ⟨4, true, false⟩ := by
  rw [place, fitted_iff, drawerOpen_eq]
  simp [State.reset, Straps.ceiling]

theorem reset_allSound : AllSound State.reset := fun i => by
  rw [place_reset, slot_reset]
  exact soundSlot_initial 4 true false false 0

theorem holders_reset (k : ImageId) : State.reset.holders k = 0 := by
  have hslots : State.reset.slots = Vector.replicate 24 (Slot.initial .vacant 4 false 0) := rfl
  rw [State.holders, hslots, Vector.toList_replicate]
  rfl

theorem reset_imagesSound : State.reset.imagesSound := by
  refine ⟨(windowsSound_iff _).mpr ⟨fun k => ?_, fun k l _ hk => ?_⟩, fun k => ?_, ?_, Memory.wf_reset, Memory.codesWf_reset⟩
  · rw [image_reset]
    exact ⟨rfl, Nat.zero_le _, Nat.zero_le _⟩
  · rw [image_reset] at hk
    exact absurd rfl hk
  · rw [image_reset, holders_reset]
    exact ⟨rfl, fun hne => absurd rfl hne⟩
  · refine ⟨List.nodup_nil, Nat.le_refl _, fun k => ?_, fun _ _ _ _ _ hp => by cases hp⟩
    have hjobs : State.reset.jobs = [] := rfl
    rw [image_reset, hjobs]
    simp [Image.initial]

theorem reset_uplinkSound : State.reset.uplinkSound :=
  (uplinkSound_iff _).mpr (soundWithin_of_cleared (Nat.zero_le _) rfl rfl fun i => by rw [slot_reset]; rfl)

/-- Settles O4: vacant slots, free images, and empty tables and queues. -/
theorem resetIsSound : Obligations.ResetIsSound :=
  ⟨(slotsSound_iff _).mpr reset_allSound, FanOut.sound_empty rfl rfl, reset_imagesSound, reset_uplinkSound⟩

end Sys2Proof.Machine.ResetState
end

section
/-! PROOF. The transmitter of a slot engine (2.5): a frame raised, begun and ended, and what the last byte of a frame starts. -/

namespace Sys2Proof.Machine.LineOrder

open Tables FanOut PowerBlock ImageStore SlotActs TimeBase

variable {s : State} {i : SlotId}

/-! ### A slot's stream fields -/

theorem modStream_congr {x : Slot} {f g : StreamRecord → StreamRecord} (h : ∀ r, x.stream = some r → f r = g r) :
    x.modStream f = x.modStream g := by
  unfold Slot.stream at h
  unfold Slot.modStream
  cases hf : x.inFlight with
  | none => rfl
  | some r => cases ht : r.transaction <;> simp_all

theorem modStream_id (x : Slot) : x.modStream (fun r => r) = x := by
  unfold Slot.modStream
  split
  · next f hf =>
    split
    · next r hr => rw [← hr, ← hf]
    · rfl
  · rfl

theorem modStream_fixed {x : Slot} {f : StreamRecord → StreamRecord} (h : ∀ r, x.stream = some r → f r = r) :
    x.modStream f = x :=
  (modStream_congr h).trans (modStream_id x)

/-- A change of a stream's fields under a condition on the slot. -/
theorem modStream_if (x : Slot) (c : Prop) [Decidable c] (f : StreamRecord → StreamRecord) :
    (if c then x.modStream f else x) = x.modStream fun r => if c then f r else r := by
  by_cases hc : c
  · simp only [if_pos hc]
  · simp only [if_neg hc, modStream_id]

/-! ### A frame's time on the line (R31, R34; log 10) -/

theorem rate_eq (n : Nat) : Config.rate n = [500000, 1000000, 3000000, 6000000, 12000000].getD n 12000000 := by
  match n with
  | 0 => rfl
  | 1 => rfl
  | 2 => rfl
  | 3 => rfl
  | 4 => rfl
  | _ + 5 => rfl

theorem chunkCount_eq (length : Nat) : chunkCount length = (length + 511) / 512 := by
  have h : length + 512 - 1 = length + 511 := by omega
  rw [chunkCount, ceilDiv, Config.blockBytes, h]

theorem allowanceOf_eq (wire n : Nat) :
    allowanceOf wire n =
      (wire * 10000 + [500000, 1000000, 3000000, 6000000, 12000000].getD n 12000000 - 1) /
        [500000, 1000000, 3000000, 6000000, 12000000].getD n 12000000 := by
  rw [allowanceOf, ceilDiv, rate_eq]

theorem lineSteps_eq (kind : Byte) (payload n : Nat) :
    lineSteps kind payload n = if kind = 0x04 ∨ kind = 0x0B then allowanceOf (payload + 8) n else 0 := by
  simp [lineSteps, selfEnding, kindDirective, kindBridgeEnter]

/-! ### Frames raised, begun and ended (R34, R35) -/

theorem free_iff (x : Transmitter) : x.free = true ↔ x.sending = none ∧ x.breaking = none := by
  simp [Transmitter.free, and_comm]

/-- A slot that has begun the frame given on a line that is free. -/
def begun (x : Slot) (f : RaisedFrame) (rest : List RaisedFrame) : Slot :=
  { x with
    tx :=
      { sending := some ⟨f.kind, x.link.txCounter, f.service, f.payload⟩, waiting := rest, breaking := none
        left := if f.kind = 0x04 ∨ f.kind = 0x0B then allowanceOf (f.payload.length + 8) x.link.rate else 0 }
    link := { x.link with txCounter := x.link.txCounter + 1 } }

theorem transmit_waiting {x : Slot} {f : RaisedFrame} {rest : List RaisedFrame} (hf : x.tx.free = true)
    (hw : x.tx.waiting = f :: rest) : x.transmit = begun x f rest := by
  obtain ⟨-, hb⟩ := (free_iff x.tx).mp hf
  rw [Slot.transmit, if_pos hf, hw]
  simp only [Slot.beginFrame, begun, hb, lineSteps_eq]

theorem transmit_nothing {x : Slot} (hw : x.tx.waiting = []) : x.transmit = x := by
  rw [Slot.transmit, hw, ite_self]

theorem transmit_busy {x : Slot} (hf : x.tx.free = false) : x.transmit = x := by
  rw [Slot.transmit, if_neg (by simp [hf])]

theorem raiseFrame_busy {x : Slot} (hf : x.tx.free = false) (kind service : Byte) (payload : List Byte) :
    x.raiseFrame kind service payload = { x with tx := { x.tx with waiting := x.tx.waiting ++ [⟨kind, service, payload⟩] } } :=
  transmit_busy hf

theorem raiseFrame_free {x : Slot} (hf : x.tx.free = true) (hw : x.tx.waiting = []) (kind service : Byte) (payload : List Byte) :
    x.raiseFrame kind service payload = begun x ⟨kind, service, payload⟩ [] :=
  transmit_waiting (x := { x with tx := { x.tx with waiting := x.tx.waiting ++ [⟨kind, service, payload⟩] } }) hf (by simp [hw])

theorem frameEnded_next {x : Slot} {f : RaisedFrame} {rest : List RaisedFrame} (hb : x.tx.breaking = none)
    (hw : x.tx.waiting = f :: rest) : x.frameEnded = begun x f rest :=
  transmit_waiting (x := { x with tx := { x.tx with sending := none, left := 0 } }) ((free_iff _).mpr ⟨rfl, hb⟩) hw

theorem frameEnded_last {x : Slot} (hb : x.tx.breaking = none) (hw : x.tx.waiting = []) :
    x.frameEnded = { x with tx := ⟨none, [], none, 0⟩ } := by
  rw [Slot.frameEnded, transmit_nothing (x := { x with tx := { x.tx with sending := none, left := 0 } }) hw]
  simp only [hb, hw]

theorem frameEnded_breaking {x : Slot} (hb : x.tx.breaking ≠ none) :
    x.frameEnded = { x with tx := { x.tx with sending := none, left := 0 } } := by
  refine transmit_busy ?_
  rw [← Bool.not_eq_true, free_iff]
  exact fun h => hb h.2

/-! ### The last byte of a frame -/

theorem sendingKind_iff (x : Slot) (kind : Byte) : x.sendingKind kind = true ↔ ∃ f, x.tx.sending = some f ∧ f.kind = kind := by
  unfold Slot.sendingKind
  split
  · next f hf => simp [hf]
  · next hf => simp [hf]

/-- The last byte of a frame of the kind given ends it, with its effect unless another such frame waits (log 28). -/
theorem frameSent_sent {f : Frame} {kind : Byte} (hf : (s.slot i).tx.sending = some f) (hk : f.kind = kind) (effect : Slot → Slot) :
    ∃ u : State, s.frameSent i kind effect = u.slotWork i ∧ keepsBut [.slots] s u ∧ slotsBut (· = i) s u ∧
      u.slot i =
        Slot.frameEnded (if (s.slot i).tx.waiting.any (fun w => w.kind == kind) then s.slot i else effect (s.slot i)) := by
  refine ⟨_, if_pos ((sendingKind_iff _ _).mpr ⟨f, hf, hk⟩), modSlot_keeps s i _, fun _ hj => State.slot_modSlot_ne s _ hj, ?_⟩
  rw [State.slot_modSlot_same]
  rfl

theorem frameSent_not {kind : Byte} (hf : ∀ f : Frame, (s.slot i).tx.sending = some f → f.kind ≠ kind) (effect : Slot → Slot) :
    s.frameSent i kind effect = s := by
  refine if_neg fun h => ?_
  obtain ⟨f, hs, hk⟩ := (sendingKind_iff _ _).mp h
  exact hf f hs hk

theorem openStream_eq (x : Slot) :
    x.openStream =
      x.modStream fun r => if x.state = .streaming ∧ r.phase = .opening then { r with phase := .sending } else r := by
  rw [Slot.openStream, modStream_if]
  simp only [ite_and]

theorem chunkOnLine_eq (x : Slot) : x.chunkOnLine = (x.tx.sending.map fun f => f.payload.length).getD 4 - 4 := by
  unfold Slot.chunkOnLine
  split
  · next f hf => simp [hf]
  · next hf => simp [hf]

theorem chunkSent_eq (x : Slot) :
    x.chunkSent =
      x.modStream fun r =>
        if x.state = .streaming ∧ r.phase = .sending then
          { r with
            bytesSent := r.bytesSent + ((x.tx.sending.map fun f => f.payload.length).getD 4 - 4)
            phase := if r.nextChunk = (r.length + 511) / 512 then .closing else .sending }
        else r := by
  rw [Slot.chunkSent, modStream_if]
  simp only [ite_and, chunkOnLine_eq, chunkCount_eq]

/-- Settles O51: the transmitter's equations, and the four frames whose last byte is a command. -/
theorem framesLeaveInOrder : Obligations.FramesLeaveInOrder := by
  refine ⟨fun x kind service payload f rest => ?_, fun i s => ?_⟩
  · intro rate begun
    refine ⟨free_iff x.tx, fun hf => raiseFrame_busy hf _ _ _, fun hf hw => ?_, fun hb hw => ?_, frameEnded_last,
      frameEnded_breaking⟩
    · simp only [raiseFrame_free hf hw, LineOrder.begun, allowanceOf_eq, begun, rate]
    · simp only [frameEnded_next hb hw, LineOrder.begun, allowanceOf_eq, begun, rate]
  · intro x c kind y hc
    obtain ⟨effect, hexec, rfl⟩ :
        ∃ effect : Slot → Slot, exec c s = .next (s.frameSent i kind effect) ∧ y = effect x := by
      rcases hc with ⟨rfl, rfl, rfl⟩ | ⟨rfl, rfl, rfl⟩ | ⟨rfl, rfl, rfl⟩ | ⟨rfl, rfl, rfl⟩
      · exact ⟨_, rfl, rfl⟩
      · exact ⟨_, rfl, rfl⟩
      · exact ⟨_, rfl, (openStream_eq x).symm⟩
      · exact ⟨_, rfl, (chunkSent_eq x).symm⟩
    refine ⟨fun f hf hk => ?_, fun hf => ?_⟩
    · obtain ⟨u, ht, hu⟩ := frameSent_sent hf hk effect
      exact ⟨_, u, hexec, ht, hu⟩
    · rw [hexec, frameSent_not hf]

end Sys2Proof.Machine.LineOrder
end

section
/-! PROOF. What a slot engine does of itself (1.4.2, 2.8, 6.6): the head entry of a READY slot's queue started, and the chunks
of a STREAMING slot read and sent. -/

namespace Sys2Proof.Machine.SlotWork

open Tables FanOut PowerBlock ImageStore SlotActs TimeBase LineOrder

variable {s : State} {i : SlotId}

/-! ### The wire bytes and the window of a member (R103 to R105) -/

theorem translate_eq (pairs : List (Byte × Byte)) (service : Byte) :
    translate pairs service = ((pairs.find? fun p => p.1 == service).map fun p => p.2).getD service := by
  unfold translate
  split
  · next p hp => simp [hp]
  · next hp => simp [hp]

theorem pushWire_eq (length : Nat) : pushWire length = length + 12 * ((length + 511) / 512) + 276 := by
  rw [pushWire, chunkCount_eq]

theorem streamOpenPayload_eq (length : Nat) (crc : Word) :
    streamOpenPayload length crc =
      toLittleEndian 4 length ++ toLittleEndian 4 crc.toNat ++ [0x00, 0x02] ++ toLittleEndian 2 ((length + 511) / 512) := by
  have hblock : toLittleEndian 2 Config.blockBytes = [0x00, 0x02] := by decide
  rw [streamOpenPayload, hblock, chunkCount_eq]

/-! ### Frames and reports -/

@[simp] theorem raiseFrame_reports (x : Slot) (kind service : Byte) (payload : List Byte) :
    (x.raiseFrame kind service payload).reports = x.reports := by
  rw [Slot.raiseFrame_eq]

@[simp] theorem raiseFrame_inFlight (x : Slot) (kind service : Byte) (payload : List Byte) :
    (x.raiseFrame kind service payload).inFlight = x.inFlight := by
  rw [Slot.raiseFrame_eq]

theorem transmit_with_reports (x : Slot) (l : List Report) :
    Slot.transmit { x with reports := l } = { x.transmit with reports := l } := by
  unfold Slot.transmit
  cases hf : x.tx.free <;> cases hw : x.tx.waiting <;> rfl

/-- A report made before the ABORT is raised or after it is the same. -/
theorem abortingFrom_with_reports (x : Slot) (l : List Report) :
    Slot.abortingFrom { x with reports := l } = { x.abortingFrom with reports := l } :=
  transmit_with_reports
    { x with
      state := .aborting, abortWait := none, inFlight := x.inFlight.map InFlight.aborted
      link := { x.link with exchange := none }
      tx := { x.tx with waiting := x.tx.waiting ++ [⟨kindAbort, 0, []⟩] } }
    l

/-! ### The start of a member (R49, R136, R137) -/

/-- A slot that has started a directive. -/
def directed (x : Slot) (now : Count) (e : QueueEntry) (payload : List Byte) : Slot :=
  let window := memberWindow e.work e.timeout x.link.rate
  { Slot.raiseFrame { x with state := .busy, inFlight := some ⟨some e.tag, some ⟨now, window⟩, .directive⟩ } kindDirective
      (translate x.translation e.service) payload with
    reports := x.reports ++ [⟨e.tag, .start now window⟩] }

/-- A slot that has started a push, whose stream holds its image or does not. -/
def pushed (x : Slot) (now : Count) (e : QueueEntry) (k : ImageId) (generation : Half) (length : Nat) (crc : Word)
    (held : Bool) : Slot :=
  let window := memberWindow e.work e.timeout x.link.rate
  { Slot.raiseFrame
      { x with
        state := .streaming
        inFlight :=
          some ⟨some e.tag, some ⟨now, window⟩, .stream (StreamRecord.begin k generation length crc held)⟩ }
      kindStreamOpen (translate x.translation e.service) (streamOpenPayload length crc) with
    reports := x.reports ++ [⟨e.tag, .start now window⟩] }

theorem slot_modSlot_report (f : Slot → Slot) (r : Report) (j : SlotId) :
    ((s.modSlot i f).report i r).slot j =
      if j = i then { f (s.slot i) with reports := (f (s.slot i)).reports ++ [r] } else s.slot j := by
  rw [slot_report, State.slot_modSlot_same]
  split
  · rfl
  · next h => exact State.slot_modSlot_ne s f h

section
variable {e : QueueEntry} {k : ImageId} {generation : Half} {length : Nat} {crc : Word} {payload : List Byte}

theorem startMember_directive (he : e.work = .directive payload) :
    (s.startMember i e).images = s.images ∧
      ∀ j, (s.startMember i e).slot j = if j = i then directed (s.slot i) s.now e payload else s.slot j := by
  unfold State.startMember
  simp only [he]
  refine ⟨rfl, fun j => ?_⟩
  rw [slot_modSlot_report, raiseFrame_reports, directed, he]

/-- A push starts with a STREAM_OPEN and its report, before its image is looked at. -/
def opened (s : State) (i : SlotId) (e : QueueEntry) (k : ImageId) (generation : Half) (length : Nat) (crc : Word)
    (held : Bool) : State :=
  let window := memberWindow e.work e.timeout (s.slot i).link.rate
  (s.modSlot i fun x =>
    Slot.raiseFrame
      { x with
        state := .streaming
        inFlight :=
          some ⟨some e.tag, some ⟨s.now, window⟩, .stream (StreamRecord.begin k generation length crc held)⟩ }
      kindStreamOpen (translate (s.slot i).translation e.service) (streamOpenPayload length crc)).report i
    ⟨e.tag, .start s.now window⟩

theorem slot_opened (held : Bool) (j : SlotId) :
    (opened s i e k generation length crc held).slot j =
      if j = i then pushed (s.slot i) s.now e k generation length crc held else s.slot j := by
  rw [opened, slot_modSlot_report, raiseFrame_reports, pushed]

theorem startMember_accepted (he : e.work = .push k generation length crc)
    (h : (s.image k).state = .ready ∧ (s.image k).generation = generation) :
    s.startMember i e =
      (opened s i e k generation length crc true).modImage k fun y =>
        { y with fields := { y.fields with references := y.fields.references + 1 } } := by
  have hheld : ((s.image k).state == .ready && (s.image k).generation == generation) = true := by simp [h]
  unfold State.startMember
  simp only [he, hheld, if_true]
  rw [opened, he]

theorem startMember_stale (he : e.work = .push k generation length crc)
    (h : ¬ ((s.image k).state = .ready ∧ (s.image k).generation = generation)) :
    s.startMember i e =
      ((opened s i e k generation length crc false).report i ⟨e.tag, .streamDamage⟩).enterAborting i := by
  have hheld : ((s.image k).state == .ready && (s.image k).generation == generation) = false := by
    rw [← Bool.not_eq_true]
    simpa using h
  unfold State.startMember
  simp only [he, hheld, Bool.false_eq_true, if_false]
  rw [opened, he]

theorem pushed_stream (x : Slot) (now : Count) (held : Bool) :
    (pushed x now e k generation length crc held).stream = some (StreamRecord.begin k generation length crc held) := by
  unfold Slot.stream pushed
  simp

/-- A slot whose push is stopped at once (R137): both reports are made, and the ABORT follows. -/
theorem slot_startMember_stale (he : e.work = .push k generation length crc)
    (h : ¬ ((s.image k).state = .ready ∧ (s.image k).generation = generation)) (j : SlotId) :
    (s.startMember i e).slot j =
      if j = i then
        { (pushed (s.slot i) s.now e k generation length crc false).abortingFrom with
          reports :=
            (s.slot i).reports ++
              [⟨e.tag, .start s.now (memberWindow e.work e.timeout (s.slot i).link.rate)⟩, ⟨e.tag, .streamDamage⟩] }
      else s.slot j := by
  rw [startMember_stale he h, slot_enterAborting]
  by_cases hj : j = i
  · rw [if_pos hj, if_pos hj, slot_report, if_pos rfl, slot_opened, if_pos rfl, Slot.released_of_not_held,
      abortingFrom_with_reports]
    · simp [pushed]
    · intro r hr
      have hstream : some (StreamRecord.begin k generation length crc false) = some r :=
        (pushed_stream (s.slot i) s.now false).symm.trans hr
      rw [← Option.some.inj hstream]
      rfl
  · rw [if_neg hj, if_neg hj, slot_report, if_neg hj, slot_opened, if_neg hj]

theorem releaseReference_of_not_held (h : ∀ r, (s.slot i).stream = some r → r.referenceHeld = false) :
    s.releaseReference i = s := by
  unfold State.releaseReference
  split
  · next r hr => rw [h r hr, if_neg Bool.false_ne_true]
  · rfl

theorem startMember_stale_images (he : e.work = .push k generation length crc)
    (h : ¬ ((s.image k).state = .ready ∧ (s.image k).generation = generation)) : (s.startMember i e).images = s.images := by
  rw [startMember_stale he h, State.enterAborting, releaseReference_of_not_held]
  · rfl
  · intro r hr
    rw [slot_report, if_pos rfl, slot_opened, if_pos rfl] at hr
    have hstream : some (StreamRecord.begin k generation length crc false) = some r :=
      (pushed_stream (s.slot i) s.now false).symm.trans hr
    rw [← Option.some.inj hstream]
    rfl

end

/-! ### The work of a READY slot (R15) -/

theorem slotWork_ready (h : (s.slot i).state = .ready) : s.slotWork i = (s.readyWork i).grant := by
  simp only [State.slotWork, h]

theorem readyWork_exchanging (h : (s.slot i).link.exchange ≠ none) : s.readyWork i = s :=
  if_pos (Option.isSome_iff_ne_none.mpr h)

theorem readyWork_stepsDown (he : (s.slot i).link.exchange = none) (hm : (s.slot i).link.stepDownMark = true)
    (hr : 0 < (s.slot i).link.rate) : s.readyWork i = s.startExchange i ((s.slot i).link.rate - 1) .stepDown := by
  simp [State.readyWork, he, hm, hr]

theorem no_stepDown {x : Slot} (h : x.link.stepDownMark = false ∨ x.link.rate = 0) :
    (x.link.stepDownMark && decide (0 < x.link.rate)) = false := by
  rcases h with h | h <;> simp [h]

theorem readyWork_idle (he : (s.slot i).link.exchange = none)
    (hm : (s.slot i).link.stepDownMark = false ∨ (s.slot i).link.rate = 0) (hq : (s.slot i).queue = []) : s.readyWork i = s := by
  simp [State.readyWork, he, no_stepDown hm, hq]

theorem readyWork_starts {e : QueueEntry} {rest : List QueueEntry} (he : (s.slot i).link.exchange = none)
    (hm : (s.slot i).link.stepDownMark = false ∨ (s.slot i).link.rate = 0) (hq : (s.slot i).queue = e :: rest) :
    s.readyWork i = (s.modSlot i fun x => { x with queue := rest }).startMember i e := by
  simp [State.readyWork, he, no_stepDown hm, hq]

theorem slot_startMember_ne {j : SlotId} (hj : j ≠ i) (e : QueueEntry) : (s.startMember i e).slot j = s.slot j := by
  cases he : e.work with
  | directive payload => rw [(startMember_directive he).2, if_neg hj]
  | push k generation length crc =>
    by_cases h : (s.image k).state = .ready ∧ (s.image k).generation = generation
    · rw [startMember_accepted he h, State.slot_modImage, slot_opened, if_neg hj]
    · rw [slot_startMember_stale he h, if_neg hj]

theorem readyWork_slotsBut (s : State) (i : SlotId) : slotsBut (· = i) s (s.readyWork i) := by
  intro j hj
  unfold State.readyWork
  dsimp only
  split
  · rfl
  · split
    · rw [slot_startExchange, if_neg hj]
    · split
      · rfl
      · rw [slot_startMember_ne hj, State.slot_modSlot_ne s _ hj]

/-- Settles O52: what the READY slot's own work makes of it, by the exchange, the step-down mark and the head entry. -/
theorem readySlotTakesItsHeadEntry : Obligations.ReadySlotTakesItsHeadEntry := by
  intro i s hst x rate
  refine ⟨s.readyWork i, slotWork_ready hst, readyWork_keeps s i, readyWork_slotsBut s i, readyWork_exchanging,
    fun he hm hr => ?_, fun he hm => ⟨readyWork_idle he hm, fun tag service accepted timeout work rest hq => ?_⟩⟩
  · rw [readyWork_stepsDown he hm hr]
    exact ⟨rfl, (slot_startExchange s i _ _ i).trans (if_pos rfl)⟩
  · intro agentService
    rw [readyWork_starts he hm hq]
    set u := s.modSlot i fun x => { x with queue := rest } with hu
    have hslot : u.slot i = { x with queue := rest } := State.slot_modSlot_same s i _
    refine ⟨fun payload hwork => ?_, fun k generation length crc hwork => ?_⟩
    · subst hwork
      obtain ⟨himages, hs⟩ := startMember_directive (s := u) (i := i) (e := ⟨tag, service, accepted, timeout, _⟩) rfl
      refine ⟨himages, (hs i).trans ((if_pos rfl).trans ?_)⟩
      rw [hslot]
      simp only [directed, memberWindow, directiveWire, allowanceOf_eq, translate_eq]
      rfl
    · subst hwork
      have hwindow : memberWindow (.push k generation length crc) timeout x.link.rate =
          min (timeout + ((length + 12 * ((length + 511) / 512) + 276) * 10000 + rate - 1) / rate) 1800000 := by
        rw [memberWindow, allowanceOf_eq, pushWire_eq]
        rfl
      intro chunks window started
      have hstarted (held : Bool) :
          pushed { x with queue := rest } s.now ⟨tag, service, accepted, timeout, .push k generation length crc⟩ k generation
            length crc held = started held := by
        simp only [pushed, translate_eq, streamOpenPayload_eq, hwindow]
        rfl
      split_ifs with haccepted
      · rw [startMember_accepted (s := u) (e := ⟨tag, service, accepted, timeout, _⟩) rfl haccepted]
        refine ⟨?_, fun l => (State.image_modImage _ k l _).trans ?_⟩
        · rw [State.slot_modImage, slot_opened, if_pos rfl, hslot]
          exact hstarted true
        · rfl
      · refine ⟨startMember_stale_images (s := u) (e := ⟨tag, service, accepted, timeout, _⟩) rfl haccepted,
          (slot_startMember_stale (s := u) (e := ⟨tag, service, accepted, timeout, _⟩) rfl haccepted i).trans
            ((if_pos rfl).trans ?_)⟩
        rw [hslot, ← hstarted false]
        simp only [hwindow]
        rfl

end Sys2Proof.Machine.SlotWork
end

section
/-! PROOF. The work of a STREAMING slot (6.6), and what ends a member from inside the device (1.6, 2.10, 6.6). -/

namespace Sys2Proof.Machine.SlotWork

open Tables FanOut PowerBlock ImageStore SlotActs TimeBase LineOrder

variable {s : State} {i : SlotId} {x : Slot}

/-! ### Chunk by chunk (R139) -/

theorem modStream_modStream (x : Slot) (f g : StreamRecord → StreamRecord) :
    (x.modStream f).modStream g = x.modStream fun r => g (f r) := by
  unfold Slot.modStream
  cases hf : x.inFlight with
  | none => simp [hf]
  | some r => cases ht : r.transaction <;> simp [hf, ht]

theorem waitingKind_iff (x : Slot) (kind : Byte) : x.waitingKind kind = true ↔ ∃ f ∈ x.tx.waiting, f.kind = kind := by
  simp [Slot.waitingKind]

theorem chunkBoundary_iff (x : Slot) :
    x.chunkBoundary = true ↔
      (∀ f, x.tx.sending = some f → f.kind ≠ 0x08 ∧ f.kind ≠ 0x0A) ∧ ∀ f ∈ x.tx.waiting, f.kind ≠ 0x08 := by
  rw [Slot.chunkBoundary, Bool.not_eq_true', ← Bool.not_eq_true]
  simp only [Bool.or_eq_true, sendingKind_iff, waitingKind_iff, kindStreamOpen, kindStreamData]
  grind

/-- A stream that asks for the next chunk's block: credit is left, and a chunk is still to be read (R139). -/
def asks (q : StreamRecord) : StreamRecord :=
  if q.phase = .sending ∧ 0 < q.credit ∧ q.nextChunk < (q.length + 511) / 512 then { q with read := .waiting } else q

theorem askChunk_eq (x : Slot) : x.askChunk = x.modStream fun q => if q.read = .none then asks q else q := by
  refine modStream_congr fun q _ => ?_
  by_cases hr : q.read = .none <;>
    simp [asks, hr, chunkCount_eq, and_assoc]

theorem askChunk_idle {r : StreamRecord} (hs : x.stream = some r) (hr : r.read = .none) : x.askChunk = x.modStream asks := by
  rw [askChunk_eq]
  refine modStream_congr fun q hq => ?_
  obtain rfl : r = q := Option.some.inj (hs.symm.trans hq)
  rw [if_pos hr]

theorem askChunk_reading {r : StreamRecord} (hs : x.stream = some r) (hr : r.read ≠ .none) : x.askChunk = x := by
  rw [askChunk_eq]
  refine modStream_fixed fun q hq => ?_
  obtain rfl : r = q := Option.some.inj (hs.symm.trans hq)
  rw [if_neg hr]

theorem sendChunk_not_held {r : StreamRecord} (hs : x.stream = some r) (hr : ∀ data, r.read ≠ .held data) : x.sendChunk = x := by
  unfold Slot.sendChunk
  simp only [hs]

/-- A held chunk is sent when the transmitter is free, and the next one is asked for (R139). -/
theorem chunkWork_held {r : StreamRecord} {data : List Byte} (hs : x.stream = some r) (hr : r.read = .held data) :
    x.sendChunk.askChunk =
      if r.phase = .sending ∧ x.tx.free = true ∧ x.tx.waiting = [] then
        (x.raiseFrame 0x0A 0 (toLittleEndian 4 r.nextChunk ++ data)).modStream fun q =>
          asks { q with credit := q.credit - 1, nextChunk := q.nextChunk + 1, read := .none }
      else x := by
  unfold Slot.sendChunk
  simp only [hs, hr]
  have hcond : (decide (r.phase = .sending) && x.tx.free && x.tx.waiting.isEmpty) = true ↔
      r.phase = .sending ∧ x.tx.free = true ∧ x.tx.waiting = [] := by simp [and_assoc]
  by_cases h : r.phase = .sending ∧ x.tx.free = true ∧ x.tx.waiting = []
  · rw [if_pos (hcond.mpr h), if_pos h, askChunk_eq, modStream_modStream]
    simp only [if_true]
    rfl
  · rw [if_neg (mt hcond.mp h), if_neg h]
    exact askChunk_reading hs (by simp [hr])

/-! ### The work of a STREAMING slot (R48, R139) -/

theorem slotWork_streaming (h : (s.slot i).state = .streaming) : s.slotWork i = (s.streamWork i).grant := by
  simp only [State.slotWork, h]

theorem slotWork_none (h1 : (s.slot i).state ≠ .ready) (h2 : (s.slot i).state ≠ .streaming) : s.slotWork i = s.grant := by
  unfold State.slotWork
  split
  · next h => exact absurd h h1
  · next h => exact absurd h h2
  · rfl

theorem streamWork_exchanging (h : (s.slot i).link.exchange ≠ none) : s.streamWork i = s :=
  if_pos (Option.isSome_iff_ne_none.mpr h)

theorem streamWork_stepsDown (he : (s.slot i).link.exchange = none) (hm : (s.slot i).link.stepDownMark = true)
    (hr : 0 < (s.slot i).link.rate) (hb : (s.slot i).chunkBoundary = true) :
    s.streamWork i = s.startExchange i ((s.slot i).link.rate - 1) .stepDown := by
  simp [State.streamWork, he, hm, hr, hb]

theorem streamWork_chunks (he : (s.slot i).link.exchange = none)
    (hm : ¬ ((s.slot i).link.stepDownMark = true ∧ 0 < (s.slot i).link.rate ∧ (s.slot i).chunkBoundary = true)) :
    s.streamWork i = s.noteAlone.modSlot i fun x => x.sendChunk.askChunk := by
  have hcond : ((s.slot i).link.stepDownMark && decide (0 < (s.slot i).link.rate) && (s.slot i).chunkBoundary) = false := by
    rw [← Bool.not_eq_true]
    simpa [and_assoc] using hm
  simp only [State.streamWork, he, hcond, Option.isSome_none, Bool.false_eq_true, if_false]

theorem slot_noteAlone (s : State) (j : SlotId) : s.noteAlone.slot j = s.slot j := rfl

theorem streamWork_rest (s : State) (i : SlotId) :
    slotsBut (· = i) s (s.streamWork i) ∧ (s.streamWork i).arbiterPointer = s.arbiterPointer ∧
      (s.streamWork i).granted = s.granted := by
  unfold State.streamWork
  dsimp only
  split
  · exact ⟨fun _ _ => rfl, rfl, rfl⟩
  · split
    · exact ⟨fun j hj => (slot_startExchange s i _ _ j).trans (if_neg hj), rfl, rfl⟩
    · exact ⟨fun j hj => State.slot_modSlot_ne s.noteAlone _ hj, rfl, rfl⟩

/-- Settles O53: the exchange, the step-down mark and the read state decide what the stream's work is. -/
theorem streamSendsChunkByChunk : Obligations.StreamSendsChunkByChunk := by
  intro i s x
  refine ⟨slotWork_none, fun r hst hr => ?_⟩
  intro stepsDown asks
  have hsteps : stepsDown ↔ x.link.stepDownMark = true ∧ 0 < x.link.rate ∧ x.chunkBoundary = true := by
    rw [chunkBoundary_iff]
  obtain ⟨hslots, hpointer, hgranted⟩ := streamWork_rest s i
  refine ⟨s.streamWork i, slotWork_streaming hst, streamWork_keeps s i, hslots, hpointer, hgranted, streamWork_exchanging,
    fun he hd => ?_, fun he hd => ?_⟩
  · obtain ⟨hm, hrate, hb⟩ := hsteps.mp hd
    rw [streamWork_stepsDown he hm hrate hb]
    exact ⟨rfl, (slot_startExchange s i _ _ i).trans (if_pos rfl)⟩
  · rw [streamWork_chunks he (mt hsteps.mpr hd), State.slot_modSlot_same, slot_noteAlone, State.modSlot_engineAlone,
      noteAlone_engineAlone, engineHasStore_iff]
    refine ⟨Iff.rfl, fun data hread => chunkWork_held hr hread, fun hread => ?_, fun hread => ?_⟩
    · rw [sendChunk_not_held hr (by simp [hread])]
      exact askChunk_idle hr hread
    · rw [sendChunk_not_held hr (by rcases hread with h | h | h <;> simp [h])]
      exact askChunk_reading hr (by rcases hread with h | h | h <;> simp [h])

end Sys2Proof.Machine.SlotWork
end

section
/-! PROOF. What ends a member from inside the device: the damage stop, the member window and the queue limit (5.3, 6.6). -/

namespace Sys2Proof.Machine.Deadlines

open Tables FanOut PowerBlock ImageStore SlotActs TimeBase

variable {s : State} {i : SlotId}

/-! ### The abort of the in-flight member (R51) -/

/-- A slot whose in-flight member is reported as ended while its transaction is aborted. -/
def aborted (x : Slot) (body : ReportBody) : Slot :=
  Slot.abortingFrom (Slot.released { x with reports := x.reports ++ x.ownerReport body })

theorem slot_abortWith (s : State) (i : SlotId) (body : ReportBody) (j : SlotId) :
    (s.abortWith i body).slot j = if j = i then aborted (s.slot i) body else s.slot j := by
  rw [State.abortWith, slot_enterAborting, State.slot_modSlot_same]
  split
  · rfl
  · next hj => rw [State.slot_modSlot_ne s _ hj]

theorem abortWith_keeps (s : State) (i : SlotId) (body : ReportBody) : keepsBut [.images, .slots] s (s.abortWith i body) :=
  ((modSlot_keeps s i _).mono (by decide)).trans (enterAborting_keeps _ i)

theorem abortWith_releases (s : State) (i : SlotId) (body : ReportBody) :
    releasesReferences s (s.abortWith i body) (· == i) :=
  releases_of_modSlot (fun _ => rfl) (enterAborting_releases _ i)

/-- The command that ends the in-flight member with a report, and what it leaves. -/
theorem exec_abortWith {c : Instr} {body : ReportBody} (hc : exec c s = .next (s.abortWith i body)) :
    ∃ t, exec c s = .next t ∧ keepsBut [.images, .slots] s t ∧ slotsBut (· = i) s t ∧ releasesReferences s t (· == i) ∧
      t.slot i = aborted (s.slot i) body :=
  ⟨_, hc, abortWith_keeps s i body, fun j hj => (slot_abortWith s i body j).trans (if_neg hj), abortWith_releases s i body,
    (slot_abortWith s i body i).trans (if_pos rfl)⟩

/-! ### The damage stop (R142) -/

theorem streamsImage_iff (x : Slot) (d : DamageStop) :
    x.streamsImage d = true ↔
      x.state = .streaming ∧
        ∃ r, x.stream = some r ∧ r.referenceHeld = true ∧ r.image = d.image ∧ r.generation = d.generation := by
  unfold Slot.streamsImage
  cases hs : x.stream <;> simp [and_assoc]

theorem damageStop_taken {d : DamageStop} {rest : List DamageStop} (hd : (s.slot i).damageStops = d :: rest) :
    exec (.damageStop i) s =
      .next
        (if (s.slot i).streamsImage d then (s.modSlot i fun x => { x with damageStops := rest }).abortWith i .streamDamage
          else s.modSlot i fun x => { x with damageStops := rest }) := by
  change execDamageStop i s = _
  simp only [execDamageStop, hd]

/-! ### The member window (R107, R108) -/

theorem memberWindow_guard {f : InFlight} (hf : (s.slot i).inFlight = some f) :
    ((((s.slot i).state = .busy || (s.slot i).state = .streaming) && dueSome s.now (s.slot i).window) = true) ↔
      ((s.slot i).state = .busy ∨ (s.slot i).state = .streaming) ∧ dueSome s.now f.window = true := by
  have hw : (s.slot i).window = f.window := by simp [Slot.window, hf]
  simp [hw]

/-! ### The queue limit (R109) -/

theorem queueLimit_none (h : ∀ q ∈ (s.slot i).queue, due s.now ⟨q.accepted, q.timeout⟩ = false) :
    exec (.queueLimitExpiry i) s = .next s := by
  have hfind : (s.slot i).queue.find? (fun e => due s.now e.limit) = none := by
    rw [List.find?_eq_none]
    exact fun q hq => Bool.not_eq_true _ ▸ h q hq
  change execQueueLimitExpiry i s = _
  simp only [execQueueLimitExpiry, hfind]

/-- The entry that has waited too long is the first from the head whose limit is due. -/
theorem queueLimit_first {front back : List QueueEntry} {e : QueueEntry} (hq : (s.slot i).queue = front ++ e :: back)
    (he : due s.now ⟨e.accepted, e.timeout⟩ = true) (hfront : ∀ q ∈ front, due s.now ⟨q.accepted, q.timeout⟩ = false) :
    exec (.queueLimitExpiry i) s =
      .next
        ((s.modSlot i fun x =>
          { x with
            queue := front ++ back
            reports := x.reports ++ [⟨e.tag, .queueLimit⟩] }).slotWork i) := by
  have hlimit : due s.now e.limit = true := he
  have hskip : ∀ q ∈ front, ¬ due s.now q.limit = true := fun q hq => Bool.not_eq_true _ ▸ hfront q hq
  have hfind : (s.slot i).queue.find? (fun e => due s.now e.limit) = some e := by
    rw [hq, List.find?_append, List.find?_eq_none.mpr hskip, Option.none_or, List.find?_cons_of_pos (p := fun e : QueueEntry => due s.now e.limit) hlimit]
  have herase : (s.slot i).queue.eraseP (fun e => due s.now e.limit) = front ++ back := by
    rw [hq, List.eraseP_append_right _ hskip, List.eraseP_cons_of_pos (p := fun e : QueueEntry => due s.now e.limit) hlimit]
  change execQueueLimitExpiry i s = _
  simp only [execQueueLimitExpiry, hfind, State.modSlot, herase]

/-- Settles O54: the three ends of a member, each with the case in which nothing is due. -/
theorem deadlinesEndMembers : Obligations.DeadlinesEndMembers := by
  intro i s x aborts
  refine ⟨fun d rest hd => ?_, fun f hf => ⟨fun hdue => ?_, fun hdue => ?_⟩, fun front e back hq he hfront => ?_,
    queueLimit_none⟩
  · intro streams
    have htaken := damageStop_taken hd
    refine ⟨fun hs => ?_, fun hs => ?_⟩
    · rw [if_pos ((streamsImage_iff x d).mpr hs)] at htaken
      set u := s.modSlot i fun x => { x with damageStops := rest } with hu
      refine ⟨_, htaken, ((modSlot_keeps s i _).mono (by decide)).trans (abortWith_keeps u i _), fun j hj => ?_,
        releases_of_modSlot (fun _ => rfl) (abortWith_releases u i _), ?_⟩
      · rw [slot_abortWith, if_neg hj, State.slot_modSlot_ne s _ hj]
      · rw [slot_abortWith, if_pos rfl, hu, State.slot_modSlot_same]
        rfl
    · rw [if_neg (mt (streamsImage_iff x d).mp hs)] at htaken
      exact exec_modSlot htaken rfl
  · exact exec_abortWith (congrArg Host.Outcome.next (if_pos ((memberWindow_guard hf).mpr hdue)))
  · exact congrArg Host.Outcome.next (if_neg (mt (memberWindow_guard hf).mp hdue))
  · exact ⟨_, _, queueLimit_first hq he hfront, rfl, modSlot_keeps s i _, fun j hj => State.slot_modSlot_ne s _ hj,
      State.slot_modSlot_same s i _⟩

end Sys2Proof.Machine.Deadlines
end

section
/-! PROOF. OPEN_BRIDGE, at once or behind a rate exchange, and the events of a bridged slot (chapter 8). -/

namespace Sys2Proof.Machine.Bridging

open Tables UplinkQueues FanOut PowerBlock SlotActs TimeBase LineOrder

variable {s u : State} {i : SlotId} {tag : Tag}

/-! ### OPEN_BRIDGE (8.2) -/

theorem idleClassCode_of_le {code : Byte} (h : code.toNat ≤ 3) :
    idleClassCode code = some ([none, some 500, some 2000, some 8000].getD code.toNat none) := by
  unfold idleClassCode
  generalize code.toNat = n at h
  match n, h with
  | 0, _ => rfl
  | 1, _ => rfl
  | 2, _ => rfl
  | 3, _ => rfl

theorem idleClassCode_of_lt {code : Byte} (h : 3 < code.toNat) : idleClassCode code = none := by
  unfold idleClassCode
  generalize code.toNat = n at h
  match n, h with
  | _ + 4, _ => rfl

/-- The part of OPEN_BRIDGE that goes by the slot: READY, and whether an exchange is in progress (R42, R162). -/
def openBridgeRequest (s : State) (tag : Tag) (idleClass : Option Nat) (i : SlotId) : State :=
  if (s.slot i).state ≠ .ready then s.answer tag codeOpenBridge .wrongState
  else if (s.slot i).link.exchange.isSome then
    { s with port := { s.port with inProgress := some (.openBridge tag i idleClass) } }
  else (s.openBridgeOn i idleClass).answer tag codeOpenBridge .accepted

theorem openBridge_malformed (h : s.intakeOpen = true) {f : OpenBridgeFields} (hf : 3 < f.idleClass.toNat) :
    exec (.openBridge tag (.shaped f)) s = .next (s.answer tag codeOpenBridge .malformed) := by
  change execOpenBridge tag (.shaped f) s = _
  simp only [execOpenBridge, requestWith_shaped h, idleClassCode_of_lt hf]

theorem openBridge_onSlot (h : s.intakeOpen = true) {f : OpenBridgeFields} (hf : f.idleClass.toNat ≤ 3) :
    exec (.openBridge tag (.shaped f)) s =
      .next
        (s.onSlot tag codeOpenBridge f.slot
          (openBridgeRequest s tag ([none, some 500, some 2000, some 8000].getD f.idleClass.toNat none))) := by
  change execOpenBridge tag (.shaped f) s = _
  simp only [execOpenBridge, requestWith_shaped h, idleClassCode_of_le hf]
  rfl

/-- A slot that has entered BRIDGE (R164). -/
def bridged (x : Slot) (idleClass : Option Nat) (now : Count) : Slot :=
  { Slot.raiseFrame { x with ring := [], wrapped := false, link := { x.link with receiver := .hunting } } 0x0B 0 [] with
    state := .bridge
    bridge := some ⟨x.link.rate, idleClass, idleClass.map fun n => ⟨now, n⟩, [], none⟩ }

theorem openBridgeOn_eq (s : State) (i : SlotId) (c : Option Nat) :
    s.openBridgeOn i c = s.modSlot i fun x => bridged x c s.now := rfl

theorem transmit_with_exchange (x : Slot) (e : Option Exchange) :
    Slot.transmit { x with link := { x.link with exchange := e } } =
      { x.transmit with link := { x.transmit.link with exchange := e } } := by
  unfold Slot.transmit
  cases hf : x.tx.free <;> cases hw : x.tx.waiting <;> rfl

/-- The frame on the line does not depend on the exchange that has ended. -/
theorem bridged_with_exchange (x : Slot) (e : Option Exchange) (c : Option Nat) (now : Count) :
    bridged { x with link := { x.link with exchange := e } } c now =
      { bridged x c now with link := { (bridged x c now).link with exchange := e } } := by
  have h := transmit_with_exchange
    { x with
      ring := [], wrapped := false, link := { x.link with receiver := .hunting }
      tx := { x.tx with waiting := x.tx.waiting ++ [⟨0x0B, 0, []⟩] } }
    e
  exact congrArg
    (fun y : Slot =>
      ({ y with state := .bridge, bridge := some ⟨x.link.rate, c, c.map fun n => ⟨now, n⟩, [], none⟩ } : Slot)) h

/-! ### The OPEN_BRIDGE that waits behind a rate exchange (R42; log 18) -/

section
variable {c : Option Nat} {x : Slot}

/-- The request leaves the port. -/
def undeferred (u : State) : State := { u with port := { u.port with inProgress := none } }

theorem resolveDeferred_ready (hp : u.port.inProgress = some (.openBridge tag i c))
    (hu : u.slot i = { x with link := { x.link with exchange := none } }) (hst : x.state = .ready) :
    u.resolveDeferred i = ((undeferred u).openBridgeOn i c).answer tag codeOpenBridge .accepted := by
  simp [State.resolveDeferred, hp, hu, hst, undeferred]

theorem resolveDeferred_moved (hp : u.port.inProgress = some (.openBridge tag i c))
    (hu : u.slot i = { x with link := { x.link with exchange := none } }) (hst : x.state ≠ .ready) :
    u.resolveDeferred i = (undeferred u).answer tag codeOpenBridge .wrongState := by
  simp [State.resolveDeferred, hp, hu, hst, undeferred]

end

/-- Settles O40: the checks in their order, the bridge at once or the request deferred, and what the exchange's end makes of
the deferred request. -/
theorem openBridgeEntersBridge : Obligations.OpenBridgeEntersBridge := by
  intro tag f s h run
  refine ⟨fun hbad => ⟨_, openBridge_malformed h hbad, answer_onlyAnswers h⟩, fun hidle => ⟨fun hun => ?_, fun i hi hf => ?_⟩⟩
  · exact ⟨_, (openBridge_onSlot h hidle).trans (congrArg _ (onSlot_unfitted hun)), answer_onlyAnswers h⟩
  · intro x idleClass opened
    have hrun : exec (.openBridge tag (.shaped f)) s = .next (openBridgeRequest s tag idleClass i) :=
      (openBridge_onSlot h hidle).trans (congrArg _ (onSlot_fitted hi hf))
    refine ⟨fun hst => ?_, fun hst he => ?_, fun hst he => ?_, fun u r rest hr hp hperiod => ?_,
      fun u hc hp hu hnow => ⟨fun hst => ?_, fun hst => ?_⟩⟩
    · exact ⟨_, hrun.trans (congrArg _ (if_pos hst)), answer_onlyAnswers h⟩
    · have hopen : openBridgeRequest s tag idleClass i = (s.openBridgeOn i idleClass).answer tag codeOpenBridge .accepted :=
        (if_neg (not_not_intro hst)).trans (if_neg (by simp [show (s.slot i).link.exchange = none from he]))
      exact ⟨_, hrun.trans (congrArg _ hopen), modSlot_then_answer h i _⟩
    · have hwait : openBridgeRequest s tag idleClass i =
          { s with port := { s.port with inProgress := some (.openBridge tag i idleClass) } } :=
        (if_neg (not_not_intro hst)).trans (if_pos (Option.isSome_iff_ne_none.mpr he))
      exact hrun.trans (congrArg _ hwait)
    · refine ⟨_, faultRequest_taken hr, ?_⟩
      set v := u.modSlot i fun x => { x with faultRequests := rest } with hv
      have hslot : v.slot i = { u.slot i with faultRequests := rest } := State.slot_modSlot_same u i _
      rw [takeFaultRequest_powered (by rw [hslot]; exact hp) (by rw [hslot]; exact hperiod)]
      have hact : Acts u (v.enterFault i r.cause r.detail) [i] (refusal v i) :=
        (Acts.modSlot u i rfl).before (Acts.enterFault v i r.cause r.detail)
      rw [refusal_congr (s := u) (t := v) rfl] at hact
      exact hact.refusesDeferred
    · rw [resolveDeferred_ready hp hu hst]
      set v := undeferred u with hv
      have hk := answer_keeps (v.openBridgeOn i idleClass) tag codeOpenBridge .accepted 0 .none
      have hslots (j : SlotId) : ((v.openBridgeOn i idleClass).answer tag codeOpenBridge .accepted).slot j =
          (v.openBridgeOn i idleClass).slot j := slot_answer ..
      refine ⟨answer_receiptJoins (s := v.openBridgeOn i idleClass) hc, ?_, fun j hj => ?_, hk .port (by decide), ?_⟩
      · exact (((withPort_keeps u _).mono (by decide)).step (openBridgeOn_keeps v i idleClass) (by decide)).step hk (by decide)
      · rw [hslots, openBridgeOn_eq, State.slot_modSlot_ne _ _ hj]
        rfl
      · rw [hslots, openBridgeOn_eq, State.slot_modSlot_same]
        change bridged (u.slot i) idleClass u.now = _
        rw [hu, hnow]
        exact bridged_with_exchange x none idleClass s.now
    · rw [resolveDeferred_moved hp hu hst]
      have hk := answer_keeps (undeferred u) tag codeOpenBridge .wrongState 0 .none
      exact ⟨answer_receiptJoins (s := undeferred u) hc, ((withPort_keeps u _).mono (by decide)).step hk (by decide),
        hk .port (by decide)⟩

/-! ### The raw bytes of a bridged slot (8.3, 8.4) -/

section
variable {b : BridgeRecord} {x : Slot}

theorem pushByte_eq (x : Slot) (byte : Byte) :
    x.pushByte byte =
      { x with
        ring := if x.ring.length < 2048 then x.ring ++ [byte] else x.ring.drop 1 ++ [byte]
        wrapped := if x.ring.length < 2048 then x.wrapped else true } := by
  unfold Slot.pushByte Config.ringBytes
  split <;> rfl

theorem pushByte_bridge (x : Slot) (byte : Byte) : (x.pushByte byte).bridge = x.bridge := by
  rw [pushByte_eq]

/-- A slot on which a raw byte has arrived (R165, R167). -/
def rawByteTaken (x : Slot) (b : BridgeRecord) (byte : Byte) (now : Count) : Slot :=
  { x with
    ring := if x.ring.length < 2048 then x.ring ++ [byte] else x.ring.drop 1 ++ [byte]
    wrapped := if x.ring.length < 2048 then x.wrapped else true
    bridge := some { b with idleTimer := b.idleClass.map fun n => ⟨now, n⟩ } }

theorem pushByte_restartIdle (hb : x.bridge = some b) (byte : Byte) (now : Count) :
    (x.pushByte byte).restartIdle now = rawByteTaken x b byte now := by
  rw [Slot.restartIdle, pushByte_bridge, hb, pushByte_eq]
  rfl

theorem rawByteReceived_bridge (h : (s.slot i).state = .bridge) (byte : Byte) :
    exec (.rawByteReceived i byte) s =
      .next
        ((s.modSlot i fun x => (x.pushByte byte).restartIdle s.now).buildBridgeOut i (s.slot i).ring.isEmpty) :=
  congrArg Host.Outcome.next (if_pos h)

/-- Without a full message the builder starts the gathering timer, or does nothing (R168). -/
theorem buildBridgeOut_not_full {start : Bool} (hst : (u.slot i).state = .bridge) (hne : (u.slot i).ring ≠ [])
    (hfull : ¬ ((u.slot i).messageWaiting = false ∧ 256 ≤ (u.slot i).ring.length)) :
    u.buildBridgeOut i start =
      if (u.slot i).messageWaiting = false ∧ start = true then u.modSlot i fun x => x.setGathering (some ⟨u.now, 2⟩)
      else u := by
  cases hw : (u.slot i).messageWaiting with
  | true => simp [State.buildBridgeOut, hst, hw]
  | false =>
    have hshort : ¬ 256 ≤ (u.slot i).ring.length := fun hlen => hfull ⟨hw, hlen⟩
    cases start with
    | true => simpa using buildBridgeOut_short hst hw hne hshort
    | false => simp [State.buildBridgeOut, hst, hw, hne, Config.bridgeOutBytes, hshort]

theorem rawByteTaken_ring (x : Slot) (b : BridgeRecord) (byte : Byte) (now : Count) :
    (rawByteTaken x b byte now).ring ≠ [] := by
  unfold rawByteTaken
  dsimp only
  split <;> simp

end

/-! ### The timers of a bridge, and the bytes it sends (8.3 to 8.5) -/

section
variable {b : BridgeRecord}

theorem gathering_taken (hb : (s.slot i).bridge = some b) (hd : dueSome s.now b.gathering = true) :
    exec (.bridgeOutGatheringExpiry i) s =
      .next
        (if (s.slot i).state = .bridge && !(s.slot i).messageWaiting && !(s.slot i).ring.isEmpty then s.queueBridgeOut i
          else s.modSlot i fun x => x.setGathering none) := by
  have hg : (s.slot i).gathering = b.gathering := by simp [Slot.gathering, hb]
  exact congrArg Host.Outcome.next (if_pos (by rw [hg]; exact hd))

theorem setGathering_eq {x : Slot} (hb : x.bridge = some b) (t : Option Timer) :
    x.setGathering t = { x with bridge := some { b with gathering := t } } := by
  rw [Slot.setGathering, hb]
  rfl

theorem bridgeByteSent_guard (hst : (s.slot i).state = .bridge) {out : Byte} {rest : List Byte}
    (hout : (s.slot i).output = out :: rest) :
    ((s.slot i).state = .bridge && !(s.slot i).output.isEmpty && (s.slot i).tx.free && (s.slot i).tx.waiting.isEmpty) = true ↔
      (s.slot i).tx.free = true ∧ (s.slot i).tx.waiting = [] := by
  simp [hst, hout]

/-- What a BRIDGE_OUT that is queued leaves of the uplink and of the slots (R168). -/
theorem queueBridgeOut_spec (s : State) (i : SlotId) :
    let t := s.queueBridgeOut i
    keepsBut [.uplink, .slots] s t ∧ slotsBut (· = i) s t ∧ t.uplink.receipts = s.uplink.receipts ∧
      t.uplink.gathers = s.uplink.gathers ∧ t.uplink.notices = s.uplink.notices ∧
      t.uplink.bridgeOuts = s.uplink.bridgeOuts ++ [⟨i, (s.slot i).wrapped, (s.slot i).ring.take 256⟩] ∧
      t.slot i =
        { s.slot i with
          ring := (s.slot i).ring.drop 256, wrapped := false, messageWaiting := true
          bridge := (s.slot i).bridge.map fun b => { b with gathering := none } } := by
  obtain ⟨hr, hg, hn, hb⟩ := queueBridgeOut_classes s i
  exact ⟨queueBridgeOut_keeps s i, fun j hj => (slot_queueBridgeOut s i j).trans (if_neg hj), hr, hg, hn, hb,
    (slot_queueBridgeOut s i i).trans (if_pos rfl)⟩

theorem breakEnd_taken (hd : dueSome s.now (s.slot i).tx.breaking = true) :
    exec (.breakEnd i) s = .next (s.modSlot i fun x => Slot.transmit { x with tx := { x.tx with breaking := none } }) :=
  congrArg Host.Outcome.next (if_pos hd)

end

/-- Settles O42: a raw byte in each direction, the two timers of a bridge, and the break that follows it. -/
theorem bridgeEventsMoveTheBytes : Obligations.BridgeEventsMoveTheBytes := by
  refine ⟨fun i b byte s hst hb => ⟨?_, fun hd => ⟨fun hw hne => ?_, fun hidle => ?_⟩, fun out rest hout => ?_, fun hd => ?_⟩,
    fun i s => ?_, fun i byte s hst hf => ?_⟩
  · set u := s.modSlot i fun x => (x.pushByte byte).restartIdle s.now with hu
    have hslot : u.slot i = rawByteTaken (s.slot i) b byte s.now :=
      (State.slot_modSlot_same s i _).trans (pushByte_restartIdle hb byte s.now)
    have hslots : slotsBut (· = i) s u := fun j hj => State.slot_modSlot_ne s _ hj
    have hkeeps : keepsBut [.uplink, .slots] s u := (modSlot_keeps s i _).mono (by decide)
    have hstate : (u.slot i).state = .bridge := by rw [hslot]; exact hst
    have hne : (u.slot i).ring ≠ [] := by rw [hslot]; exact rawByteTaken_ring _ _ _ _
    intro ring wrapped
    refine ⟨_, rawByteReceived_bridge hst byte, hkeeps.trans (buildBridgeOut_keeps u i _), ?_⟩
    by_cases hfull : (u.slot i).messageWaiting = false ∧ 256 ≤ (u.slot i).ring.length
    · obtain ⟨-, hother, hr, hg, hn, hbo, hsl⟩ := queueBridgeOut_spec u i
      have hfull' : (s.slot i).messageWaiting = false ∧ 256 ≤ ring.length := by
        rw [hslot] at hfull
        exact hfull
      rw [buildBridgeOut_full hstate hfull.1 hfull.2]
      rw [hslot] at hsl hbo
      refine ⟨fun j hj => (hother j hj).trans (hslots j hj), hr, hg, hn, ?_⟩
      rw [if_pos hfull']
      exact ⟨hbo, hsl⟩
    · have hfull' : ¬ ((s.slot i).messageWaiting = false ∧ 256 ≤ ring.length) := by
        rw [hslot] at hfull
        exact hfull
      rw [buildBridgeOut_not_full hstate hne hfull]
      have hcond : ((u.slot i).messageWaiting = false ∧ (s.slot i).ring.isEmpty = true) ↔
          (s.slot i).messageWaiting = false ∧ (s.slot i).ring = [] := by
        rw [hslot, List.isEmpty_iff]
        rfl
      by_cases hstart : (s.slot i).messageWaiting = false ∧ (s.slot i).ring = []
      · rw [if_pos (hcond.mpr hstart)]
        refine ⟨fun j hj => (State.slot_modSlot_ne u _ hj).trans (hslots j hj), rfl, rfl, rfl, ?_⟩
        rw [if_neg hfull', State.slot_modSlot_same, hslot, if_pos hstart]
        exact ⟨rfl, rfl⟩
      · rw [if_neg (mt hcond.mp hstart)]
        refine ⟨hslots, rfl, rfl, rfl, ?_⟩
        rw [if_neg hfull', hslot, if_neg hstart]
        exact ⟨rfl, rfl⟩
  · obtain ⟨hk, hother, hr, hg, hn, hbo, hsl⟩ := queueBridgeOut_spec s i
    have hsend : exec (.bridgeOutGatheringExpiry i) s = .next (s.queueBridgeOut i) := by
      rw [gathering_taken hb hd, if_pos]
      simp [hst, hw, hne]
    rw [hb] at hsl
    exact ⟨_, hsend, hk, hother, hr, hg, hn, hbo, hsl⟩
  · have hstop : exec (.bridgeOutGatheringExpiry i) s = .next (s.modSlot i fun x => x.setGathering none) := by
      rw [gathering_taken hb hd, if_neg]
      rcases hidle with h | h <;> simp [h]
    exact exec_modSlot hstop (setGathering_eq hb none)
  · have hguard := bridgeByteSent_guard hst ((output_of_bridge hb).trans hout)
    refine ⟨fun hfree hwait => ?_, fun hbusy => ?_⟩
    · refine exec_modSlot (congrArg Host.Outcome.next (if_pos (hguard.mpr ⟨hfree, hwait⟩))) ?_
      rw [setOutput_restartIdle hb, output_of_bridge hb, hout]
      rfl
    · refine congrArg Host.Outcome.next (if_neg (mt hguard.mp fun ⟨hfree, hwait⟩ => ?_))
      rcases hbusy with h | h
      · exact Bool.false_ne_true (h.symm.trans hfree)
      · exact h hwait
  · have hidle : (s.slot i).idleTimer = b.idleTimer := by simp [Slot.idleTimer, hb]
    exact exec_modSlot (congrArg Host.Outcome.next (if_pos (by rw [hidle]; simp [hst, hd]))) rfl
  · intro x hd
    refine ⟨_, breakEnd_taken hd, modSlot_keeps s i _, fun j hj => State.slot_modSlot_ne s _ hj, ?_⟩
    intro released
    rw [State.slot_modSlot_same]
    change (x.tx.sending = none → x.tx.left = 0 → released.transmit = released.frameEnded) ∧
      (x.tx.sending = none → x.tx.waiting = [] → released.transmit = released) ∧
        (x.tx.sending ≠ none → released.transmit = released)
    refine ⟨fun hs hl => ?_, fun _ hw => transmit_nothing hw, fun hs => transmit_busy ?_⟩
    · have hended : ({ released with tx := { released.tx with sending := none, left := 0 } } : Slot) = released := by
        rw [← hs, ← hl]
      rw [Slot.frameEnded, hended]
    · rw [← Bool.not_eq_true, free_iff]
      exact fun h => hs h.1
  · exact congrArg Host.Outcome.next ((if_neg hst).trans (if_neg (by simp [hf])))

end Sys2Proof.Machine.Bridging
end

section
/-! PROOF. What a slot engine makes of a frame it receives (2.4, 2.8): the verdict on the frame, the receiver that hunts
again, the expected value and the score counted, and the fault of a score that reaches 0. -/

namespace Sys2Proof.Machine.LinkFrames

open Tables FanOut PowerBlock ImageStore SlotActs TimeBase

variable {s : State} {i : SlotId} {x : Slot}

/-! ### One slot replaced -/

theorem setSlot_setSlot (s : State) (i : SlotId) (x y : Slot) : (s.setSlot i x).setSlot i y = s.setSlot i y := by
  simp only [State.setSlot, Vector.set_set]

theorem modSlot_setSlot (s : State) (i : SlotId) (x : Slot) (f : Slot → Slot) :
    (s.setSlot i x).modSlot i f = s.setSlot i (f x) := by
  rw [State.modSlot, setSlot_setSlot, State.slot_setSlot_same]

theorem setSlot_same (s : State) (i : SlotId) : s.setSlot i (s.slot i) = s := by
  unfold State.setSlot State.slot
  rw [show s.slots.get i = s.slots[i.val] from rfl, Vector.set_getElem_self]

theorem setSlot_keeps (s : State) (i : SlotId) (x : Slot) : keepsBut [.slots] s (s.setSlot i x) := modSlot_keeps s i fun _ => x

theorem setSlot_slotsBut (s : State) (i : SlotId) (x : Slot) : slotsBut (· = i) s (s.setSlot i x) :=
  fun _ hj => State.slot_setSlot_ne s x hj

/-! ### The verdict on a frame (R36 to R38) -/

theorem judge_unframed {f : Frame} (hf : x.state.framed = false) (d : Bool) : x.judge f d = .ignored := by
  simp [Slot.judge, hf]

theorem judge_hello {f : Frame} (hf : x.state.framed = true) (hk : f.kind = 0x01) (hw : frameWellFormed f = true) (d : Bool) :
    x.judge f d = .hello := by
  simp [Slot.judge, hf, kindHello, hk, hw]

theorem judge_badHello {f : Frame} {d : Bool} (hf : x.state.framed = true) (hk : f.kind = 0x01)
    (hw : frameWellFormed f = false) :
    x.judge f d = if x.link.awaitingHello || (d && 0 < x.link.rate) then .ignored else .formatError := by
  simp [Slot.judge, hf, kindHello, hk, hw]

section
variable {f : Frame} (hf : x.state.framed = true) (hk : f.kind ≠ 0x01)
include hf hk

theorem judge_early (ha : x.link.awaitingHello = true) (d : Bool) :
    x.judge f d = if f.kind = 0x07 ∧ frameWellFormed f = true then .earlyText else .ignored := by
  rw [Slot.judge, if_neg (by simp [hf]), if_neg (show ¬ f.kind = kindHello from hk), if_pos ha]
  exact if_congr ((Bool.and_eq_true _ _).to_iff.trans (and_congr_left' decide_eq_true_iff)) rfl rfl

theorem judge_sequenceError (ha : x.link.awaitingHello = false) (hs : f.seq ≠ x.link.expected) (d : Bool) :
    x.judge f d = .sequenceError := by
  rw [Slot.judge, if_neg (by simp [hf]), if_neg (show ¬ f.kind = kindHello from hk), if_neg (by simp [ha]), if_pos hs]

theorem judge_expected (ha : x.link.awaitingHello = false) (hs : f.seq = x.link.expected) (d : Bool) :
    x.judge f d = if frameWellFormed f then .good else .formatError := by
  rw [Slot.judge, if_neg (by simp [hf]), if_neg (show ¬ f.kind = kindHello from hk), if_neg (by simp [ha]), if_neg (not_not_intro hs)]

end

/-! ### The receiver after a frame (R33, R38) -/

theorem frameTaken_main {d : Bool} (hf : x.state.framed = true) (hd : d = false ∨ x.link.rate = 0) :
    x.frameTaken d = x.hunt := by
  rcases hd with rfl | hr
  · simp [Slot.frameTaken, hf]
  · simp [Slot.frameTaken, hf, hr]

theorem frameTaken_detector (hr : 0 < x.link.rate) : x.frameTaken true = x := by
  simp [Slot.frameTaken, hr]

theorem frameTaken_unframed (hf : x.state.framed = false) (d : Bool) : x.frameTaken d = x := by
  simp [Slot.frameTaken, hf]

/-! ### What is well formed (R32) -/

theorem resultClassCode_iff (code : Byte) (cls : ResultClass) : resultClassCode code = some cls ↔ code.toNat = cls.code := by
  unfold resultClassCode
  split
  all_goals cases cls <;> simp_all [ResultClass.code]

theorem resultClassCode_isSome (code : Byte) : (resultClassCode code).isSome = true ↔ ∃ cls : ResultClass, code.toNat = cls.code := by
  simp only [Option.isSome_iff_exists, resultClassCode_iff]

/-- A payload of one byte is that byte. -/
theorem payload_of_length_one {payload : List Byte} : payload.length = 1 ↔ payload = [byteAt payload 0] := by
  match payload with
  | [] => simp
  | [_] => simp [byteAt]
  | _ :: _ :: _ => simp

section
variable {seq service : Byte} {payload : List Byte}

theorem hello_wellFormed : frameWellFormed ⟨kindHello, seq, service, payload⟩ = true ↔ seq = 0 ∧ payload.length = 5 := by
  simp [frameWellFormed]

theorem linkAck_wellFormed :
    frameWellFormed ⟨kindLinkAck, seq, service, payload⟩ = true ↔ payload.length = 1 ∧ (byteAt payload 0).toNat ≤ 4 := by
  match payload with
  | [] => simp [frameWellFormed, kindLinkAck, kindHello]
  | [b] => simp [frameWellFormed, kindLinkAck, kindHello, byteAt]
  | _ :: _ :: _ => simp [frameWellFormed, kindLinkAck, kindHello]

theorem result_wellFormed :
    frameWellFormed ⟨kindResult, seq, service, payload⟩ = true ↔
      payload.length ≤ 240 ∧ ∃ cls : ResultClass, service.toNat = cls.code := by
  rw [← resultClassCode_isSome]
  simp [frameWellFormed, kindResult, kindHello, kindLinkAck]

theorem text_wellFormed :
    frameWellFormed ⟨kindText, seq, service, payload⟩ = true ↔ 1 ≤ payload.length ∧ payload.length ≤ 240 := by
  simp [frameWellFormed, kindText, kindResult, kindHello, kindLinkAck]

theorem streamCredit_wellFormed :
    frameWellFormed ⟨kindStreamCredit, seq, service, payload⟩ = true ↔ payload.length = 1 ∧ byteAt payload 0 ≠ 0 := by
  match payload with
  | [] => simp [frameWellFormed, kindStreamCredit, kindText, kindResult, kindHello, kindLinkAck]
  | [b] => simp [frameWellFormed, kindStreamCredit, kindText, kindResult, kindHello, kindLinkAck, byteAt]
  | _ :: _ :: _ => simp [frameWellFormed, kindStreamCredit, kindText, kindResult, kindHello, kindLinkAck]

end

/-! ### The score (R45 to R47) -/

/-- A slot that expects the value given, its receiver hunting. -/
def expecting (x : Slot) (expected : Byte) : Slot :=
  { x with link := { x.link with expected := expected, receiver := .hunting } }

theorem expecting_same (x : Slot) : expecting x x.link.expected = x.hunt := rfl

theorem steppingDown_eq (l : LinkState) : l.steppingDown = (l.exchange.map (·.purpose) == some .stepDown) := by
  unfold LinkState.steppingDown
  cases l.exchange <;> simp

/-- The score changed together with the expected value is what `counted` says. -/
theorem setScore_expecting (x : Slot) (expected : Byte) (v : Nat) : (expecting x expected).setScore v = x.counted expected v := by
  unfold Slot.setScore Slot.counted expecting
  simp only [steppingDown_eq, Config.scoreLow, bne]
  rfl

theorem countGood_hunting (s : State) (i : SlotId) (x : Slot) : (s.setSlot i x.hunt).countGood i = s.setSlot i x.countedGood := by
  rw [State.countGood, modSlot_setSlot]
  exact congrArg (s.setSlot i) (setScore_expecting x (x.link.expected + 1) _)

theorem faulted_counted (x : Slot) (expected : Byte) (v : Nat) (c : FaultCause) (d : Half) (now : Count) (mask : BitVec 8) :
    (x.counted expected v).faulted c d now mask = x.faulted c d now mask := rfl

/-- A loss of score that leaves some: it is counted, and the slot engine goes on. -/
theorem loseScore_counted {expected : Byte} {n : Nat} (h : n < x.link.score) :
    (s.setSlot i (expecting x expected)).loseScore i n = (s.setSlot i (x.counted expected (x.link.score - n))).slotWork i := by
  have hne : ¬ x.link.score - n = 0 := by omega
  rw [State.loseScore, modSlot_setSlot, setScore_expecting]
  exact if_neg (by rw [State.slot_setSlot_same]; exact hne)

/-- A loss of score down to 0 is a LINK_DEGRADED fault (R46). -/
theorem loseScore_degraded {expected : Byte} {n : Nat} (h : x.link.score ≤ n) :
    (s.setSlot i (expecting x expected)).loseScore i n =
      (s.setSlot i (x.counted expected (x.link.score - n))).enterFault i .linkDegraded (BitVec.ofNat 16 x.link.rate) := by
  have hz : x.link.score - n = 0 := by omega
  rw [State.loseScore, modSlot_setSlot, setScore_expecting]
  refine (if_pos (by rw [State.slot_setSlot_same]; exact hz)).trans ?_
  rw [State.slot_setSlot_same]
  rfl

/-- A change of the slot's link and then a fault: the slot's own command, and what it leaves. -/
theorem enterFault_after {y : Slot} (hn : y.noticeWaiting = (s.slot i).noticeWaiting) (hi : y.inFlight = (s.slot i).inFlight)
    (c : FaultCause) (d : Half) :
    onlySlot s ((s.setSlot i y).enterFault i c d) i ∧ refusesDeferred s ((s.setSlot i y).enterFault i c d) i ∧
      releasesReferences s ((s.setSlot i y).enterFault i c d) (· == i) ∧
      ((s.setSlot i y).enterFault i c d).slot i = y.faulted c d s.now s.noticeMask := by
  have hact : Acts s ((s.setSlot i y).enterFault i c d) [i] (refusal (s.setSlot i y) i) :=
    (Acts.modSlot s i (f := fun _ => y) hn).before (Acts.enterFault _ i c d)
  rw [refusal_congr (s := s) (t := s.setSlot i y) rfl] at hact
  refine ⟨hact.onlySlot, hact.refusesDeferred,
    releases_of_modSlot (f := fun _ => y) (fun k => ?_) (enterFault_releases (s.setSlot i y) i c d), ?_⟩
  · simp only [Slot.holds, Slot.stream, hi]
  · rw [slot_enterFault, if_pos rfl, State.slot_setSlot_same]
    rfl

/-! ### The errors (R36, R45) -/

section
variable {f : Frame} {early good : State → State}

theorem receive_unframed (hf : (s.slot i).state.framed = false) (d : Bool) : s.receive i f d early good = s := by
  simp only [State.receive, judge_unframed hf, State.modSlot, frameTaken_unframed hf, setSlot_same]

theorem receive_ignored {d : Bool} (hf : (s.slot i).state.framed = true) (hd : d = false ∨ (s.slot i).link.rate = 0)
    (hj : (s.slot i).judge f d = .ignored) : s.receive i f d early good = s.setSlot i (s.slot i).hunt := by
  simp only [State.receive, hj, State.modSlot, frameTaken_main hf hd]

theorem receive_sequenceError (hf : (s.slot i).state.framed = true) (hj : (s.slot i).judge f false = .sequenceError) :
    s.receive i f false early good = (s.setSlot i (expecting (s.slot i) (f.seq + 1))).loseScore i 12 := by
  simp only [State.receive, hj, State.modSlot, frameTaken_main hf (.inl rfl), State.sequenceError, setSlot_setSlot,
    State.slot_setSlot_same]
  rfl

theorem receive_formatError (hf : (s.slot i).state.framed = true) (hk : f.kind ≠ 0x01)
    (hj : (s.slot i).judge f false = .formatError) :
    s.receive i f false early good =
      (s.setSlot i (expecting (s.slot i) ((s.slot i).link.expected + 1))).loseScore i 8 := by
  simp only [State.receive, hj, State.modSlot, frameTaken_main hf (.inl rfl), State.formatError, kindHello, hk, if_false,
    setSlot_setSlot, State.slot_setSlot_same]
  rfl

theorem receive_helloError {d : Bool} (hf : (s.slot i).state.framed = true) (hd : d = false ∨ (s.slot i).link.rate = 0)
    (hk : f.kind = 0x01) (hj : (s.slot i).judge f d = .formatError) :
    s.receive i f d early good = (s.setSlot i (expecting (s.slot i) (s.slot i).link.expected)).loseScore i 8 := by
  simp only [State.receive, hj, State.modSlot, frameTaken_main hf hd, State.formatError, kindHello, hk, if_true]
  rfl

theorem receive_good (hf : (s.slot i).state.framed = true) (hj : (s.slot i).judge f false = .good) :
    s.receive i f false early good = (good (s.setSlot i (s.slot i).countedGood)).slotWork i := by
  simp only [State.receive, hj, State.modSlot, frameTaken_main hf (.inl rfl), countGood_hunting]

theorem receive_earlyText (hf : (s.slot i).state.framed = true) (hj : (s.slot i).judge f false = .earlyText) :
    s.receive i f false early good = early (s.setSlot i (s.slot i).hunt) := by
  simp only [State.receive, hj, State.modSlot, frameTaken_main hf (.inl rfl)]

end

theorem crcError_unframed (hf : (s.slot i).state.framed = false) : s.crcError i = s := by
  simp [State.crcError, hf]

theorem crcError_early (hf : (s.slot i).state.framed = true) (ha : (s.slot i).link.awaitingHello = true) :
    s.crcError i = s.setSlot i (s.slot i).hunt := by
  simp [State.crcError, hf, ha, State.modSlot]

theorem crcError_counts (hf : (s.slot i).state.framed = true) (ha : (s.slot i).link.awaitingHello = false) :
    s.crcError i = (s.setSlot i (expecting (s.slot i) (s.slot i).link.expected)).loseScore i 8 := by
  simp [State.crcError, hf, ha, State.modSlot, expecting_same]

end Sys2Proof.Machine.LinkFrames
end

section
/-! PROOF. Link errors (2.4, 2.8): which commands are a sequence error, a format error or a CRC error, what each costs after the
HELLO, and that before the HELLO or without a framed link it costs nothing. -/

namespace Sys2Proof.Machine.LinkFrames

open Tables FanOut PowerBlock ImageStore SlotActs TimeBase

variable {s : State} {i : SlotId} {x : Slot} {c : Instr} {f : Frame}

/-! ### The commands that bring a frame -/

theorem linkAck_ne_hello : kindLinkAck ≠ 0x01 := by decide
theorem result_ne_hello : kindResult ≠ 0x01 := by decide
theorem text_ne_hello : kindText ≠ 0x01 := by decide
theorem streamCredit_ne_hello : kindStreamCredit ≠ 0x01 := by decide
theorem linkAck_ne_text : kindLinkAck ≠ 0x07 := by decide
theorem result_ne_text : kindResult ≠ 0x07 := by decide
theorem streamCredit_ne_text : kindStreamCredit ≠ 0x07 := by decide

/-- A command brings a frame to the slot's main receiver. -/
def bringsFrame (i : SlotId) (c : Instr) (f : Frame) : Prop :=
  ∃ early good : State → State, ∀ s, exec c s = .next (s.receive i f false early good)

theorem brings_linkAck (i : SlotId) (seq service : Byte) (payload : List Byte) :
    bringsFrame i (.linkAck i seq service payload) ⟨kindLinkAck, seq, service, payload⟩ := ⟨_, _, fun _ => rfl⟩

theorem brings_result (i : SlotId) (seq service : Byte) (payload : List Byte) :
    bringsFrame i (.result i seq service payload) ⟨kindResult, seq, service, payload⟩ := ⟨_, _, fun _ => rfl⟩

theorem brings_text (i : SlotId) (seq service : Byte) (payload : List Byte) :
    bringsFrame i (.text i seq service payload) ⟨kindText, seq, service, payload⟩ := ⟨_, _, fun _ => rfl⟩

theorem brings_streamCredit (i : SlotId) (seq service : Byte) (payload : List Byte) :
    bringsFrame i (.streamCredit i seq service payload) ⟨kindStreamCredit, seq, service, payload⟩ := ⟨_, _, fun _ => rfl⟩

theorem brings_formatError (h : frameWellFormed f = false) : bringsFrame i (.formatError i f) f :=
  ⟨id, id, fun s => congrArg Host.Outcome.next (if_neg (by simp [h]))⟩

/-- A command that brings a frame, no HELLO, that does not keep to R32. -/
def isMisshapen (i : SlotId) (c : Instr) (isSeq : Byte → Prop) : Prop :=
  ∃ seq service payload, isSeq seq ∧
    ((c = .linkAck i seq service payload ∧ (payload.length ≠ 1 ∨ 4 < (byteAt payload 0).toNat)) ∨
      (c = .result i seq service payload ∧ (240 < payload.length ∨ ∀ cls : ResultClass, service.toNat ≠ cls.code)) ∨
      (c = .text i seq service payload ∧ (payload.length = 0 ∨ 240 < payload.length)) ∨
      (c = .streamCredit i seq service payload ∧ (payload.length ≠ 1 ∨ byteAt payload 0 = 0)) ∨
      ∃ f : Frame, c = .formatError i f ∧ frameWellFormed f = false ∧ f.kind ≠ 0x01 ∧ f.seq = seq)

theorem misshapen_frame {isSeq : Byte → Prop} (h : isMisshapen i c isSeq) :
    ∃ f, bringsFrame i c f ∧ isSeq f.seq ∧ f.kind ≠ 0x01 ∧ frameWellFormed f = false := by
  obtain ⟨seq, service, payload, hseq, h⟩ := h
  rcases h with ⟨rfl, h⟩ | ⟨rfl, h⟩ | ⟨rfl, h⟩ | ⟨rfl, h⟩ | ⟨f, rfl, hw, hk, rfl⟩
  · refine ⟨_, brings_linkAck i seq service payload, hseq, linkAck_ne_hello, ?_⟩
    rw [← Bool.not_eq_true, linkAck_wellFormed]
    rintro ⟨h1, h2⟩
    exact h.elim (fun h => h h1) (fun h => absurd h2 (by omega))
  · refine ⟨_, brings_result i seq service payload, hseq, result_ne_hello, ?_⟩
    rw [← Bool.not_eq_true, result_wellFormed]
    rintro ⟨h1, cls, h2⟩
    exact h.elim (fun h => absurd h1 (by omega)) (fun h => h cls h2)
  · refine ⟨_, brings_text i seq service payload, hseq, text_ne_hello, ?_⟩
    rw [← Bool.not_eq_true, text_wellFormed]
    omega
  · refine ⟨_, brings_streamCredit i seq service payload, hseq, streamCredit_ne_hello, ?_⟩
    rw [← Bool.not_eq_true, streamCredit_wellFormed]
    rintro ⟨h1, h2⟩
    exact h.elim (fun h => h h1) h2
  · exact ⟨f, brings_formatError hw, hseq, hk, hw⟩

/-- A command that brings a HELLO of another sequence value or length to a receiver that listens for it. -/
def isBadHello (s : State) (i : SlotId) (c : Instr) : Prop :=
  (∃ detector seq service payload, c = .hello i detector seq service payload ∧ (seq ≠ 0 ∨ payload.length ≠ 5) ∧
      (detector = false ∨ (s.slot i).link.rate = 0)) ∨
    ∃ f : Frame, c = .formatError i f ∧ f.kind = 0x01 ∧ frameWellFormed f = false

theorem badHello_wellFormed {seq service : Byte} {payload : List Byte} (h : seq ≠ 0 ∨ payload.length ≠ 5) :
    frameWellFormed ⟨kindHello, seq, service, payload⟩ = false := by
  rw [← Bool.not_eq_true, hello_wellFormed]
  exact fun ⟨h1, h2⟩ => h.elim (fun h => h h1) fun h => h h2

theorem badHello_frame (h : isBadHello s i c) :
    ∃ (f : Frame) (d : Bool) (early good : State → State), exec c s = .next (s.receive i f d early good) ∧
      (d = false ∨ (s.slot i).link.rate = 0) ∧ f.kind = 0x01 ∧ frameWellFormed f = false := by
  rcases h with ⟨d, seq, service, payload, rfl, hbad, hd⟩ | ⟨f, rfl, hk, hw⟩
  · exact ⟨⟨kindHello, seq, service, payload⟩, d, id, id, rfl, hd, rfl, badHello_wellFormed hbad⟩
  · obtain ⟨early, good, he⟩ := brings_formatError (i := i) hw
    exact ⟨f, false, early, good, he s, .inl rfl, hk, hw⟩

/-! ### The commands that are a CRC error (R33, R101) -/

/-- A command that is a CRC error on a framed link: one by name, a stall, a length over 516 and a CRC that differs. -/
def isCrcError (s : State) (i : SlotId) (c : Instr) : Prop :=
  c = .crcError i ∨
    (∃ bytes stall, c = .receiverStallExpiry i ∧ (s.slot i).link.receiver = .withinFrame bytes stall ∧
      due s.now stall = true) ∨
    ∃ bytes stall byte, c = .rawByteReceived i byte ∧ (s.slot i).link.receiver = .withinFrame bytes stall ∧
      let taken := bytes ++ [byte]
      let length := fromLittleEndian ((taken.drop 3).take 2)
      (taken.length = 5 ∧ 516 < length) ∨
        (length ≤ 516 ∧ taken.length = length + 7 ∧
          (crc16 (taken.take (length + 5))).toNat ≠ fromLittleEndian (taken.drop (length + 5)))

theorem rawByteReceived_framed (hf : (s.slot i).state.framed = true) (byte : Byte) :
    exec (.rawByteReceived i byte) s = .next (s.takeByte i byte) := by
  have hne : (s.slot i).state ≠ .bridge := fun h => by simp [h, SlotState.framed] at hf
  exact congrArg Host.Outcome.next ((if_neg hne).trans (if_pos hf))

/-- The CRC that a complete frame carries is its last two bytes. -/
theorem crcMatches_complete {bytes : List Byte} (h : bytes.length = announcedLength bytes + 7) :
    crcMatches bytes =
      ((crc16 (bytes.take (announcedLength bytes + 5))).toNat == fromLittleEndian (bytes.drop (announcedLength bytes + 5))) := by
  have htake : (bytes.drop (announcedLength bytes + 5)).take 2 = bytes.drop (announcedLength bytes + 5) :=
    List.take_of_length_le (by rw [List.length_drop]; omega)
  rw [crcMatches, Nat.add_comm 5, htake]

section
variable {bytes : List Byte} {stall : Timer} {byte : Byte}

/-- A byte that completes the length field, or the frame, is judged by the length announced and the CRC (R33). -/
theorem takeByte_within (h : (s.slot i).link.receiver = .withinFrame bytes stall) :
    s.takeByte i byte =
      if (bytes ++ [byte]).length < 5 then s.modSlot i fun x => x.collect (bytes ++ [byte]) s.now
      else if 516 < announcedLength (bytes ++ [byte]) then s.crcError i
      else if (bytes ++ [byte]).length < announcedLength (bytes ++ [byte]) + 7 then
        s.modSlot i fun x => x.collect (bytes ++ [byte]) s.now
      else if crcMatches (bytes ++ [byte]) then s.takeFrame i (frameOf (bytes ++ [byte]))
      else s.crcError i := by
  simp only [State.takeByte, h]

theorem takeByte_tooLong (h : (s.slot i).link.receiver = .withinFrame bytes stall) (hlen : (bytes ++ [byte]).length = 5)
    (hlong : 516 < announcedLength (bytes ++ [byte])) : s.takeByte i byte = s.crcError i := by
  rw [takeByte_within h, if_neg (by omega), if_pos hlong]

theorem takeByte_badCrc (h : (s.slot i).link.receiver = .withinFrame bytes stall)
    (hshort : announcedLength (bytes ++ [byte]) ≤ 516)
    (hlen : (bytes ++ [byte]).length = announcedLength (bytes ++ [byte]) + 7)
    (hcrc : (crc16 ((bytes ++ [byte]).take (announcedLength (bytes ++ [byte]) + 5))).toNat ≠
      fromLittleEndian ((bytes ++ [byte]).drop (announcedLength (bytes ++ [byte]) + 5))) :
    s.takeByte i byte = s.crcError i := by
  rw [takeByte_within h, if_neg (by omega), if_neg (by omega), if_neg (by omega), crcMatches_complete hlen,
    if_neg (by simpa using hcrc)]

end

theorem crcError_command (hf : (s.slot i).state.framed = true) (h : isCrcError s i c) : exec c s = .next (s.crcError i) := by
  rcases h with rfl | ⟨bytes, stall, rfl, hr, hd⟩ | ⟨bytes, stall, byte, rfl, hr, hbad⟩
  · rfl
  · exact congrArg Host.Outcome.next (if_pos (by rw [hr]; exact hd))
  · rw [rawByteReceived_framed hf]
    rcases hbad with ⟨hlen, hlong⟩ | ⟨hshort, hlen, hcrc⟩
    · rw [takeByte_tooLong hr hlen hlong]
    · rw [takeByte_badCrc hr hshort hlen hcrc]

/-! ### SEQUENCE_ERROR_FRAME (R36) -/

theorem sequenceErrorFrame_counts {seq : Byte} (hf : (s.slot i).state.framed = true)
    (ha : (s.slot i).link.awaitingHello = false) (hs : seq ≠ (s.slot i).link.expected) :
    exec (.sequenceErrorFrame i seq) s = .next ((s.setSlot i (expecting (s.slot i) (seq + 1))).loseScore i 12) := by
  change execSequenceErrorFrame i seq s = _
  simp only [execSequenceErrorFrame, hf, ha, bne_iff_ne.mpr hs, Bool.or_true, Bool.and_self, if_true, Bool.false_eq_true,
    if_false, State.modSlot, State.sequenceError, setSlot_setSlot, State.slot_setSlot_same]
  rfl

theorem sequenceErrorFrame_early (hf : (s.slot i).state.framed = true) (ha : (s.slot i).link.awaitingHello = true)
    (seq : Byte) : exec (.sequenceErrorFrame i seq) s = .next (s.setSlot i (s.slot i).hunt) := by
  change execSequenceErrorFrame i seq s = _
  simp only [execSequenceErrorFrame, hf, ha, Bool.true_or, Bool.and_self, if_true, State.modSlot]

/-! ### What an error costs (R45 to R47) -/

/-- The sequence value, the expected value after it and the loss of each error of a link past its HELLO. -/
theorem error_command {expected : Byte} {loss : Nat} (hf : (s.slot i).state.framed = true)
    (ha : (s.slot i).link.awaitingHello = false)
    (h : (∃ seq : Byte, seq ≠ (s.slot i).link.expected ∧ expected = seq + 1 ∧ loss = 12 ∧
        (c = .sequenceErrorFrame i seq ∨ ∃ f, bringsFrame i c f ∧ f.kind ≠ 0x01 ∧ f.seq = seq)) ∨
      (isMisshapen i c (· = (s.slot i).link.expected) ∧ expected = (s.slot i).link.expected + 1 ∧ loss = 8) ∨
      ((isBadHello s i c ∨ isCrcError s i c) ∧ expected = (s.slot i).link.expected ∧ loss = 8)) :
    exec c s = .next ((s.setSlot i (expecting (s.slot i) expected)).loseScore i loss) := by
  rcases h with ⟨seq, hs, rfl, rfl, rfl | ⟨f, ⟨early, good, he⟩, hk, rfl⟩⟩ | ⟨hm, rfl, rfl⟩ | ⟨hb | hc, rfl, rfl⟩
  · exact sequenceErrorFrame_counts hf ha hs
  · rw [he s, receive_sequenceError hf (judge_sequenceError hf hk ha hs false)]
  · obtain ⟨f, ⟨early, good, he⟩, hs, hk, hw⟩ := misshapen_frame hm
    rw [he s, receive_formatError hf hk]
    rw [judge_expected hf hk ha hs, if_neg (by simp [hw])]
  · obtain ⟨f, d, early, good, he, hd, hk, hw⟩ := badHello_frame hb
    rw [he, receive_helloError hf hd hk]
    rw [judge_badHello hf hk hw, if_neg]
    rcases hd with rfl | hr
    · simp [ha]
    · simp [ha, hr]
  · rw [crcError_command hf hc, crcError_counts hf ha]

/-- Before the HELLO an error only lets the receiver hunt again (R37). -/
theorem early_command (hf : (s.slot i).state.framed = true) (ha : (s.slot i).link.awaitingHello = true)
    (h : isMisshapen i c (fun _ => True) ∨ isBadHello s i c ∨ isCrcError s i c ∨ (∃ seq, c = .sequenceErrorFrame i seq) ∨
      ∃ f, bringsFrame i c f ∧ f.kind ≠ 0x01 ∧ f.kind ≠ 0x07) :
    exec c s = .next (s.setSlot i (s.slot i).hunt) := by
  rcases h with hm | hb | hc | ⟨seq, rfl⟩ | ⟨f, ⟨early, good, he⟩, hk, ht⟩
  · obtain ⟨f, ⟨early, good, he⟩, -, hk, hw⟩ := misshapen_frame hm
    rw [he s, receive_ignored hf (.inl rfl)]
    rw [judge_early hf hk ha, if_neg (by simp [hw])]
  · obtain ⟨f, d, early, good, he, hd, hk, hw⟩ := badHello_frame hb
    rw [he, receive_ignored hf hd]
    rw [judge_badHello hf hk hw, if_pos (by simp [ha])]
  · rw [crcError_command hf hc, crcError_early hf ha]
  · exact sequenceErrorFrame_early hf ha seq
  · rw [he s, receive_ignored hf (.inl rfl)]
    rw [judge_early hf hk ha, if_neg fun h => ht h.1]

/-- The HELLO detector discards a HELLO of another sequence value or length (R38). -/
theorem detector_discards {seq service : Byte} {payload : List Byte} (hr : 0 < (s.slot i).link.rate)
    (hbad : seq ≠ 0 ∨ payload.length ≠ 5) : exec (.hello i true seq service payload) s = .next s := by
  have hj : (s.slot i).judge ⟨kindHello, seq, service, payload⟩ true = .ignored := by
    cases hf : (s.slot i).state.framed with
    | false => exact judge_unframed hf true
    | true => rw [judge_badHello hf rfl (badHello_wellFormed hbad), if_pos (by simp [hr])]
  change Host.Outcome.next (s.receive i ⟨kindHello, seq, service, payload⟩ true id id) = _
  simp only [State.receive, hj, State.modSlot, frameTaken_detector hr, setSlot_same]

/-! ### Without a framed link (R38) -/

theorem unframed_frame (hf : (s.slot i).state.framed = false) (h : bringsFrame i c f) : exec c s = .next s := by
  obtain ⟨early, good, he⟩ := h
  rw [he s, receive_unframed hf]

theorem unframed_formatError (hf : (s.slot i).state.framed = false) (f : Frame) : exec (.formatError i f) s = .next s := by
  cases hw : frameWellFormed f with
  | true => exact congrArg Host.Outcome.next (if_pos hw)
  | false => exact unframed_frame hf (brings_formatError hw)

theorem unframed_stall (hf : (s.slot i).state.framed = false) : exec (.receiverStallExpiry i) s = .next s := by
  change Host.Outcome.next (if _ then s.crcError i else s) = _
  rw [crcError_unframed hf, ite_self]

theorem unframed_sequenceErrorFrame (hf : (s.slot i).state.framed = false) (seq : Byte) :
    exec (.sequenceErrorFrame i seq) s = .next s :=
  congrArg Host.Outcome.next (if_neg (by simp [hf]))

/-- Settles O50: the error each command is, what it costs, and where it has no effect. -/
theorem linkErrorsLowerTheScore : Obligations.LinkErrorsLowerTheScore := by
  intro i s x hunting crc misshapen badHello
  refine ⟨fun hf ha c expected loss h => ?_, fun hf ha c h => ?_, fun hr seq service payload hbad => detector_discards hr hbad,
    fun hf c h => ?_⟩
  · have hexec : exec c s = .next ((s.setSlot i (expecting x expected)).loseScore i loss) := by
      refine error_command hf ha ?_
      rcases h with ⟨seq, hs, he, hl, hc⟩ | h | h
      · refine .inl ⟨seq, hs, he, hl, ?_⟩
        rcases hc with hc | ⟨service, payload, rfl⟩ | ⟨service, payload, rfl⟩ | ⟨service, payload, rfl⟩ |
          ⟨service, payload, rfl⟩ | ⟨f, rfl, hw, hk, hseq⟩
        · exact .inl hc
        · exact .inr ⟨_, brings_linkAck i seq service payload, linkAck_ne_hello, rfl⟩
        · exact .inr ⟨_, brings_result i seq service payload, result_ne_hello, rfl⟩
        · exact .inr ⟨_, brings_text i seq service payload, text_ne_hello, rfl⟩
        · exact .inr ⟨_, brings_streamCredit i seq service payload, streamCredit_ne_hello, rfl⟩
        · exact .inr ⟨f, brings_formatError hw, hk, hseq⟩
      · exact .inr (.inl h)
      · exact .inr (.inr h)
    refine ⟨fun hz => ?_, fun hlt => ?_⟩
    · rw [loseScore_degraded hz] at hexec
      obtain ⟨honly, hrefuses, hreleases, hslot⟩ :=
        enterFault_after (s := s) (i := i) (y := x.counted expected (x.link.score - loss)) rfl rfl .linkDegraded
          (BitVec.ofNat 16 x.link.rate)
      exact ⟨_, hexec, honly, hrefuses, hreleases, hslot⟩
    · rw [loseScore_counted hlt] at hexec
      exact ⟨_, _, hexec, rfl, setSlot_keeps s i _, setSlot_slotsBut s i _, State.slot_setSlot_same s i _⟩
  · have hexec : exec c s = .next (s.setSlot i hunting) := by
      refine early_command hf ha ?_
      rcases h with h | h | h | h | ⟨seq, service, payload, rfl | rfl | rfl⟩
      · exact .inl h
      · exact .inr (.inl h)
      · exact .inr (.inr (.inl h))
      · exact .inr (.inr (.inr (.inl h)))
      · exact .inr (.inr (.inr (.inr ⟨_, brings_linkAck i seq service payload, linkAck_ne_hello, linkAck_ne_text⟩)))
      · exact .inr (.inr (.inr (.inr ⟨_, brings_result i seq service payload, result_ne_hello, result_ne_text⟩)))
      · exact .inr (.inr (.inr (.inr ⟨_, brings_streamCredit i seq service payload, streamCredit_ne_hello, streamCredit_ne_text⟩)))
    exact ⟨_, hexec, setSlot_keeps s i _, setSlot_slotsBut s i _, State.slot_setSlot_same s i _⟩
  · rcases h with ⟨d, seq, service, payload, rfl⟩ | ⟨seq, service, payload, rfl | rfl | rfl | rfl⟩ | ⟨f, rfl⟩ | ⟨seq, rfl⟩ |
      rfl | rfl
    · exact congrArg Host.Outcome.next (receive_unframed hf d)
    · exact unframed_frame hf (brings_linkAck i seq service payload)
    · exact unframed_frame hf (brings_result i seq service payload)
    · exact unframed_frame hf (brings_text i seq service payload)
    · exact unframed_frame hf (brings_streamCredit i seq service payload)
    · exact unframed_formatError hf f
    · exact unframed_sequenceErrorFrame hf seq
    · exact congrArg Host.Outcome.next (crcError_unframed hf)
    · exact unframed_stall hf

end Sys2Proof.Machine.LinkFrames
end

section
/-! PROOF. A good RESULT, STREAM_CREDIT or TEXT by the slot's state, and the receiver that puts a frame together byte by byte
(2.4, 1.4.2, 6.6, 8.1). -/

namespace Sys2Proof.Machine.LinkFrames

open Tables FanOut PowerBlock ImageStore SlotActs TimeBase LineOrder

variable {s u : State} {i : SlotId} {x y : Slot}

/-! ### RESULT (R50, R52, R140) -/

/-- A slot whose transaction has ended in READY, reported unless it is an orphan's. -/
def resultTaken (y : Slot) (now : Count) (cls : ResultClass) (payload : List Byte) : Slot :=
  { y with
    state := .ready, inFlight := none
    reports :=
      y.reports ++
        match y.inFlight.bind (·.owner) with
        | some tag => [⟨tag, .result now cls payload⟩]
        | none => [] }

theorem slot_endTransaction (s : State) (i : SlotId) (cls : ResultClass) (payload : List Byte) (j : SlotId) :
    (s.endTransaction i cls payload).slot j = if j = i then resultTaken (s.slot i) s.now cls payload else s.slot j := by
  rw [State.endTransaction, State.slot_modSlot, slot_releaseReference, if_pos rfl, slot_releaseReference]
  split
  · obtain ⟨f, hf, howner, -⟩ := (s.slot i).released_with
    rw [hf]
    simp only [howner]
    rfl
  · rfl

theorem slot_endAbort (s : State) (i j : SlotId) :
    (s.endAbort i).slot j =
      if j = i then { s.slot i with state := .ready, inFlight := none, abortWait := none } else s.slot j := by
  rw [State.endAbort, State.slot_modSlot, slot_releaseReference, if_pos rfl, slot_releaseReference]
  split
  · obtain ⟨f, hf, -, -⟩ := (s.slot i).released_with
    rw [hf]
  · rfl

theorem endTransaction_keeps (s : State) (i : SlotId) (cls : ResultClass) (payload : List Byte) :
    keepsBut [.images, .slots] s (s.endTransaction i cls payload) :=
  (releaseReference_keeps s i).step (modSlot_keeps _ i _) (by decide)

theorem endAbort_keeps (s : State) (i : SlotId) : keepsBut [.images, .slots] s (s.endAbort i) :=
  (releaseReference_keeps s i).step (modSlot_keeps _ i _) (by decide)

theorem takeResult_ends {cls : ResultClass} {service : Byte} {payload : List Byte}
    (hst : (u.slot i).state = .busy ∨ (u.slot i).state = .streaming) (hc : service.toNat = cls.code) :
    u.takeResult i service payload = u.endTransaction i cls payload := by
  rcases hst with h | h <;> simp only [State.takeResult, h, (resultClassCode_iff service cls).mpr hc]

theorem takeResult_aborting {service : Byte} {payload : List Byte} (hst : (u.slot i).state = .aborting) :
    u.takeResult i service payload = u.endAbort i := by
  simp only [State.takeResult, hst]

theorem takeResult_elsewhere {service : Byte} {payload : List Byte}
    (h1 : ¬ ((u.slot i).state = .busy ∨ (u.slot i).state = .streaming)) (h2 : (u.slot i).state ≠ .aborting) :
    u.takeResult i service payload = u := by
  unfold State.takeResult
  split
  · next h _ => exact absurd (.inl h) h1
  · next h _ => exact absurd (.inr h) h1
  · next h => exact absurd h h2
  · rfl

/-! ### A good frame (R54) -/

theorem judge_good {f : Frame} (hf : x.state.framed = true) (ha : x.link.awaitingHello = false) (hk : f.kind ≠ 0x01)
    (hs : f.seq = x.link.expected) (hw : frameWellFormed f = true) (d : Bool) : x.judge f d = .good := by
  rw [judge_expected hf hk ha hs, if_pos hw]

/-- A change that follows the count of a good frame, on the same slot. -/
theorem keeps_after_setSlot {A : List Part} (h : keepsBut A (s.setSlot i y) u) (hA : Part.slots ∈ A) : keepsBut A s u :=
  ((setSlot_keeps s i y).mono (List.cons_subset.mpr ⟨hA, List.nil_subset _⟩)).trans h

theorem slotsBut_after_setSlot (h : slotsBut (· = i) (s.setSlot i y) u) : slotsBut (· = i) s u :=
  fun j hj => (h j hj).trans (setSlot_slotsBut s i y j hj)

theorem releases_after_setSlot {gone : SlotId → Bool} (hi : y.inFlight = (s.slot i).inFlight)
    (h : releasesReferences (s.setSlot i y) u gone) : releasesReferences s u gone :=
  releases_of_modSlot (f := fun _ => y) (fun k => by simp only [Slot.holds, Slot.stream, hi]) h

theorem endTransaction_after (hi : y.inFlight = (s.slot i).inFlight) (cls : ResultClass) (payload : List Byte) :
    keepsBut [.images, .slots] s ((s.setSlot i y).endTransaction i cls payload) ∧
      slotsBut (· = i) s ((s.setSlot i y).endTransaction i cls payload) ∧
      releasesReferences s ((s.setSlot i y).endTransaction i cls payload) (· == i) ∧
      ((s.setSlot i y).endTransaction i cls payload).slot i = resultTaken y s.now cls payload := by
  refine ⟨keeps_after_setSlot (endTransaction_keeps _ i cls payload) (by decide),
    slotsBut_after_setSlot fun j hj => (slot_endTransaction _ i cls payload j).trans (if_neg hj),
    releases_after_setSlot hi (releaseReference_releases (s.setSlot i y) i), ?_⟩
  rw [slot_endTransaction, if_pos rfl, State.slot_setSlot_same, State.setSlot_now]

theorem endAbort_after (hi : y.inFlight = (s.slot i).inFlight) :
    keepsBut [.images, .slots] s ((s.setSlot i y).endAbort i) ∧ slotsBut (· = i) s ((s.setSlot i y).endAbort i) ∧
      releasesReferences s ((s.setSlot i y).endAbort i) (· == i) ∧
      ((s.setSlot i y).endAbort i).slot i = { y with state := .ready, inFlight := none, abortWait := none } := by
  refine ⟨keeps_after_setSlot (endAbort_keeps _ i) (by decide),
    slotsBut_after_setSlot fun j hj => (slot_endAbort _ i j).trans (if_neg hj),
    releases_after_setSlot hi (releaseReference_releases (s.setSlot i y) i), ?_⟩
  rw [slot_endAbort, if_pos rfl, State.slot_setSlot_same]

/-! ### STREAM_CREDIT (R138) -/

theorem takeCredit_slot (u : State) (i : SlotId) (increment : Byte) :
    keepsBut [.slots] u (u.takeCredit i [increment]) ∧ slotsBut (· = i) u (u.takeCredit i [increment]) ∧
      (u.takeCredit i [increment]).slot i =
        if (u.slot i).state = .streaming then
          (u.slot i).modStream fun r => { r with credit := min (r.credit + increment.toNat) 8 }
        else u.slot i := by
  have hbyte : fromLittleEndian [increment] = increment.toNat := by simp [fromLittleEndian]
  unfold State.takeCredit
  split
  · refine ⟨modSlot_keeps u i _, fun j hj => State.slot_modSlot_ne u _ hj, ?_⟩
    rw [State.slot_modSlot_same, hbyte]
    rfl
  · exact ⟨.refl _ u, fun _ _ => rfl, rfl⟩

/-! ### TEXT (R159, R160) -/

theorem pushByte_room (h : x.ring.length < 2048) (b : Byte) : x.pushByte b = { x with ring := x.ring ++ [b] } := if_pos h

theorem pushByte_full (h : ¬ x.ring.length < 2048) (b : Byte) :
    x.pushByte b = { x with ring := x.ring.drop 1 ++ [b], wrapped := true } := if_neg h

/-- The oldest byte of a ring that is not empty leaves it as more bytes join. -/
theorem drop_overwritten {r : List Byte} (h : 1 ≤ r.length) (b : Byte) (l : List Byte) :
    (r.drop 1 ++ [b] ++ l).drop l.length = (r ++ b :: l).drop (1 + l.length) := by
  rw [List.append_assoc, List.singleton_append, ← List.drop_drop, List.drop_append_of_le_length (l₁ := r) h]

/-- Bytes that join a ring of 2,048: the oldest are overwritten, and the wrapped flag tells of it. -/
theorem pushBytes_eq (l : List Byte) (x : Slot) (h : x.ring.length ≤ 2048) :
    l.foldl Slot.pushByte x =
      { x with
        ring := (x.ring ++ l).drop (x.ring.length + l.length - 2048)
        wrapped := x.wrapped || decide (2048 < x.ring.length + l.length) } := by
  induction l generalizing x with
  | nil =>
    have h0 : x.ring.length - 2048 = 0 := by omega
    have hw : ¬ 2048 < x.ring.length := by omega
    simp [h0, hw]
  | cons b l ih =>
    rw [List.foldl_cons]
    by_cases hlt : x.ring.length < 2048
    · have hlen : (x.ring ++ [b]).length + l.length = x.ring.length + (b :: l).length := by simp; omega
      rw [pushByte_room hlt, ih _ (by simpa using hlt)]
      simp only [hlen, List.append_assoc, List.singleton_append]
    · have hfull : x.ring.length = 2048 := by omega
      have hlen : (x.ring.drop 1 ++ [b]).length = 2048 := by simp [hfull]
      have hless : 2048 + l.length - 2048 = l.length := Nat.add_sub_cancel_left ..
      have hmore : x.ring.length + (b :: l).length - 2048 = 1 + l.length := by
        rw [List.length_cons, hfull, Nat.add_comm l.length 1, Nat.add_sub_cancel_left]
      have hover : 2048 < x.ring.length + (b :: l).length := by
        rw [List.length_cons, hfull]
        exact Nat.lt_add_of_pos_right (Nat.succ_pos _)
      rw [pushByte_full hlt, ih _ hlen.le]
      simp only [hlen, hless, hmore, hover, drop_overwritten (by omega : 1 ≤ x.ring.length), decide_true, Bool.or_true,
        Bool.true_or]

/-- A slot whose ring a TEXT has joined, with the event that a first byte raises. -/
def withText (x z : Slot) (payload : List Byte) (mask : BitVec 8) : Slot :=
  let w : Slot :=
    { z with
      ring := (x.ring ++ payload).drop (x.ring.length + payload.length - 2048)
      wrapped := x.wrapped || decide (2048 < x.ring.length + payload.length) }
  if x.ring = [] then w.raised .text mask else w

theorem appendText_acts (u : State) (i : SlotId) {payload : List Byte} (hr : (u.slot i).ring.length ≤ 2048) :
    Acts u (u.appendText i payload) [i] none := by
  unfold State.appendText
  dsimp only
  have hpush : Acts u (u.modSlot i fun x => payload.foldl Slot.pushByte x) [i] none :=
    Acts.modSlot u i (by rw [pushBytes_eq payload _ hr])
  split
  · exact hpush.before (Acts.raise _ i .text)
  · exact hpush

theorem slot_appendText (u : State) (i : SlotId) {payload : List Byte} (hp : 1 ≤ payload.length)
    (hr : (u.slot i).ring.length ≤ 2048) :
    (u.appendText i payload).slot i = withText (u.slot i) (u.slot i) payload u.noticeMask := by
  have hne : payload.isEmpty = false := by
    cases payload with
    | nil => exact absurd hp (by decide)
    | cons => rfl
  unfold State.appendText withText
  simp only [hne, Bool.not_false, Bool.and_true, List.isEmpty_iff]
  split
  · rw [slot_raise, if_pos rfl, State.slot_modSlot_same, pushBytes_eq payload _ hr]
    rfl
  · rw [State.slot_modSlot_same, pushBytes_eq payload _ hr]

/-- A TEXT that is taken after the slot's link has counted it, or has let its receiver hunt. -/
theorem appendText_after {payload : List Byte} (hp : 1 ≤ payload.length) (hring : y.ring = (s.slot i).ring)
    (hwrapped : y.wrapped = (s.slot i).wrapped) (hn : y.noticeWaiting = (s.slot i).noticeWaiting)
    (hr : (s.slot i).ring.length ≤ 2048) :
    keepsBut [.uplink, .slots] s ((s.setSlot i y).appendText i payload) ∧
      slotsBut (· = i) s ((s.setSlot i y).appendText i payload) ∧
      onlyNotices s ((s.setSlot i y).appendText i payload) [i] ∧
      ((s.setSlot i y).appendText i payload).slot i = withText (s.slot i) y payload s.noticeMask := by
  have hlen : ((s.setSlot i y).slot i).ring.length ≤ 2048 := by rw [State.slot_setSlot_same, hring]; exact hr
  have hact : Acts s ((s.setSlot i y).appendText i payload) [i] none :=
    (Acts.modSlot s i (f := fun _ => y) hn).before (appendText_acts _ i hlen)
  refine ⟨keeps_after_setSlot (appendText_keeps _ i payload) (by decide), hact.slotsBut_one, hact.onlyNotices, ?_⟩
  rw [slot_appendText _ i hp hlen, State.slot_setSlot_same]
  simp only [withText, hring, hwrapped]
  rfl

/-! ### The receiver, byte by byte (R33) -/

theorem collect_spec (s : State) (i : SlotId) (bytes : List Byte) :
    keepsBut [.slots] s (s.modSlot i fun x => x.collect bytes s.now) ∧
      slotsBut (· = i) s (s.modSlot i fun x => x.collect bytes s.now) ∧
      (s.modSlot i fun x => x.collect bytes s.now).slot i =
        { s.slot i with link := { (s.slot i).link with receiver := .withinFrame bytes ⟨s.now, 2⟩ } } :=
  ⟨modSlot_keeps s i _, fun _ hj => State.slot_modSlot_ne s _ hj, State.slot_modSlot_same s i _⟩

theorem takeByte_hunting (h : (s.slot i).link.receiver = .hunting) (byte : Byte) :
    s.takeByte i byte = if byte = 0xC3 then s.modSlot i fun x => x.collect [] s.now else s := by
  simp only [State.takeByte, h]

theorem takeByte_collects {bytes : List Byte} {stall : Timer} {byte : Byte}
    (h : (s.slot i).link.receiver = .withinFrame bytes stall)
    (hshort : (bytes ++ [byte]).length < 5 ∨
      (announcedLength (bytes ++ [byte]) ≤ 516 ∧ (bytes ++ [byte]).length < announcedLength (bytes ++ [byte]) + 7)) :
    s.takeByte i byte = s.modSlot i fun x => x.collect (bytes ++ [byte]) s.now := by
  rw [takeByte_within h]
  by_cases h5 : (bytes ++ [byte]).length < 5
  · rw [if_pos h5]
  · obtain ⟨hlen, hmore⟩ := hshort.resolve_left h5
    rw [if_neg h5, if_neg (Nat.not_lt.mpr hlen), if_pos hmore]

theorem fromLittleEndian_half {n : Nat} (h : n < 65536) : fromLittleEndian (halfField n) = n := by
  simp only [halfField, toLittleEndian, fromLittleEndian, BitVec.toNat_ofNat]
  omega

/-! ### A whole frame (R31) -/

section
variable {f : Frame} {taken : List Byte}

theorem taken_eq (h : frameBytes f = 0xC3 :: taken) : taken = frameBody f ++ halfField (crc16 (frameBody f)).toNat :=
  (List.cons.inj h).2.symm

theorem frameBody_length (f : Frame) : (frameBody f).length = f.payload.length + 5 := by
  simp [frameBody, halfField, toLittleEndian]

theorem taken_length (h : frameBytes f = 0xC3 :: taken) : taken.length = f.payload.length + 7 := by
  rw [taken_eq h, List.length_append, frameBody_length]
  rfl

theorem announced_frame (h : frameBytes f = 0xC3 :: taken) (hp : f.payload.length ≤ 516) :
    announcedLength taken = f.payload.length := by
  have hfield : (taken.drop 3).take 2 = halfField f.payload.length := by
    rw [taken_eq h]
    rfl
  rw [announcedLength, hfield, fromLittleEndian_half (by omega)]

theorem frameOf_frame (h : frameBytes f = 0xC3 :: taken) (hp : f.payload.length ≤ 516) : frameOf taken = f := by
  have hpayload : (taken.drop 5).take f.payload.length = f.payload := by
    rw [taken_eq h]
    exact List.take_left
  rw [frameOf, announced_frame h hp, hpayload, taken_eq h]
  rfl

theorem crcMatches_frame (h : frameBytes f = 0xC3 :: taken) (hp : f.payload.length ≤ 516) : crcMatches taken = true := by
  have hn := announced_frame h hp
  have htake : taken.take (f.payload.length + 5) = frameBody f := by
    rw [taken_eq h, ← frameBody_length, List.take_left]
  have hdrop : taken.drop (f.payload.length + 5) = halfField (crc16 (frameBody f)).toNat := by
    rw [taken_eq h, ← frameBody_length, List.drop_left]
  rw [crcMatches_complete (by rw [hn]; exact taken_length h), hn, htake, hdrop, fromLittleEndian_half (BitVec.isLt _),
    beq_self_eq_true]

/-- The last byte of a whole frame has it taken (R33). -/
theorem takeByte_frame {bytes : List Byte} {stall : Timer} {byte : Byte}
    (h : (s.slot i).link.receiver = .withinFrame bytes stall) (hp : f.payload.length ≤ 516)
    (hf : frameBytes f = 0xC3 :: (bytes ++ [byte])) : s.takeByte i byte = s.takeFrame i f := by
  have hn := announced_frame hf hp
  have hlen := taken_length hf
  rw [takeByte_within h, if_neg (by omega), if_neg (by omega), if_neg (by omega), if_pos (crcMatches_frame hf hp),
    frameOf_frame hf hp]

end

/-- A frame of none of the agent's five kinds is not well formed (R32). -/
theorem unknown_kind {f : Frame} (h1 : f.kind ≠ 0x01) (h3 : f.kind ≠ 0x03) (h5 : f.kind ≠ 0x05) (h7 : f.kind ≠ 0x07)
    (h9 : f.kind ≠ 0x09) : frameWellFormed f = false := by
  rw [frameWellFormed, if_neg (show ¬ f.kind = kindHello from h1), if_neg (show ¬ f.kind = kindLinkAck from h3),
    if_neg (show ¬ f.kind = kindResult from h5), if_neg (show ¬ f.kind = kindText from h7),
    if_neg (show ¬ f.kind = kindStreamCredit from h9)]

/-- A frame put together byte by byte is taken as the command of its kind takes it. -/
theorem takeFrame_exec (s : State) (i : SlotId) (f : Frame) :
    Host.Outcome.next (s.takeFrame i f) =
      exec
        (if f.kind = 0x01 then .hello i false f.seq f.service f.payload
          else if f.kind = 0x03 then .linkAck i f.seq f.service f.payload
          else if f.kind = 0x05 then .result i f.seq f.service f.payload
          else if f.kind = 0x07 then .text i f.seq f.service f.payload
          else if f.kind = 0x09 then .streamCredit i f.seq f.service f.payload
          else .formatError i f)
        s := by
  obtain ⟨kind, seq, service, payload⟩ := f
  dsimp only
  by_cases h1 : kind = 0x01
  · subst h1
    rfl
  by_cases h3 : kind = 0x03
  · subst h3
    rfl
  by_cases h5 : kind = 0x05
  · subst h5
    rfl
  by_cases h7 : kind = 0x07
  · subst h7
    rfl
  by_cases h9 : kind = 0x09
  · subst h9
    rfl
  rw [if_neg h1, if_neg h3, if_neg h5, if_neg h7, if_neg h9, State.takeFrame, if_neg (show ¬ kind = kindText from h7),
    if_neg (show ¬ kind = kindLinkAck from h3), if_neg (show ¬ kind = kindResult from h5),
    if_neg (show ¬ kind = kindStreamCredit from h9)]
  exact (congrArg Host.Outcome.next (if_neg (by rw [unknown_kind h1 h3 h5 h7 h9]; exact Bool.false_ne_true))).symm

/-- Settles O49: the count of a good frame, then what its kind makes of the slot; and the bytes that make a frame. -/
theorem goodFramesAreHandledByState : Obligations.GoodFramesAreHandledByState := by
  intro i s hf x within y withText
  refine ⟨fun ha => ⟨fun cls service payload hc hlen => ?_, fun service increment hinc => ?_,
    fun service payload h1 h240 hring => ?_⟩, fun ha seq service payload h1 h240 hring => ?_,
    fun hr => ⟨fun byte hb => ?_, ?_⟩, fun bytes stall byte hr => ?_⟩
  · have hj : x.judge ⟨kindResult, x.link.expected, service, payload⟩ false = .good :=
      judge_good hf ha result_ne_hello rfl (result_wellFormed.mpr ⟨hlen, cls, hc⟩) false
    have hslot : (s.setSlot i y).slot i = y := State.slot_setSlot_same s i y
    have hexec : exec (.result i x.link.expected service payload) s =
        .next (((s.setSlot i y).takeResult i service payload).slotWork i) :=
      congrArg Host.Outcome.next (receive_good hf hj)
    refine ⟨_, _, hexec, rfl, ?_⟩
    by_cases hend : x.state = .busy ∨ x.state = .streaming
    · rw [takeResult_ends (u := s.setSlot i y) (cls := cls) (by rw [hslot]; exact hend) hc, if_pos hend]
      obtain ⟨hk, hother, hreleases, hends⟩ := endTransaction_after (s := s) (i := i) (y := y) rfl cls payload
      refine ⟨hk, hother, hreleases, hends.trans ?_⟩
      unfold resultTaken
      rfl
    · rw [if_neg hend]
      by_cases habort : x.state = .aborting
      · rw [takeResult_aborting (u := s.setSlot i y) (by rw [hslot]; exact habort), if_pos habort]
        exact endAbort_after rfl
      · rw [takeResult_elsewhere (u := s.setSlot i y) (by rw [hslot]; exact hend) (by rw [hslot]; exact habort),
          if_neg habort]
        exact ⟨(setSlot_keeps s i y).mono (by decide), setSlot_slotsBut s i y, rfl, hslot⟩
  · have hj : x.judge ⟨kindStreamCredit, x.link.expected, service, [increment]⟩ false = .good :=
      judge_good hf ha streamCredit_ne_hello rfl (streamCredit_wellFormed.mpr ⟨rfl, by simpa [byteAt] using hinc⟩) false
    obtain ⟨hk, hother, hslot⟩ := takeCredit_slot (s.setSlot i y) i increment
    rw [State.slot_setSlot_same] at hslot
    exact ⟨_, _, congrArg Host.Outcome.next (receive_good hf hj), rfl, keeps_after_setSlot hk (by decide),
      slotsBut_after_setSlot hother, hslot⟩
  · have hj : x.judge ⟨kindText, x.link.expected, service, payload⟩ false = .good :=
      judge_good hf ha text_ne_hello rfl (text_wellFormed.mpr ⟨h1, h240⟩) false
    exact ⟨_, _, congrArg Host.Outcome.next (receive_good hf hj), rfl, appendText_after (y := y) h1 rfl rfl rfl hring⟩
  · have hj : x.judge ⟨kindText, seq, service, payload⟩ false = .earlyText := by
      rw [judge_early hf text_ne_hello ha]
      exact if_pos ⟨rfl, text_wellFormed.mpr ⟨h1, h240⟩⟩
    exact ⟨_, congrArg Host.Outcome.next (receive_earlyText hf hj), appendText_after (y := x.hunt) h1 rfl rfl rfl hring⟩
  · rw [rawByteReceived_framed hf, takeByte_hunting hr, if_neg hb]
  · refine ⟨_, (rawByteReceived_framed hf _).trans (congrArg _ ((takeByte_hunting hr _).trans (if_pos rfl))),
      collect_spec s i []⟩
  · intro taken length
    refine ⟨fun hshort => ?_, fun f hp hbytes => ?_⟩
    · exact ⟨_, (rawByteReceived_framed hf byte).trans (congrArg _ (takeByte_collects hr hshort)),
        collect_spec s i (bytes ++ [byte])⟩
    · rw [rawByteReceived_framed hf, takeByte_frame hr hp hbytes]
      exact takeFrame_exec s i f

end Sys2Proof.Machine.LinkFrames
end

section
/-! PROOF. The end of a rate exchange (2.7), and the HELLO that starts one (2.6). -/

namespace Sys2Proof.Machine.LinkFrames

open Tables FanOut PowerBlock ImageStore SlotActs TimeBase LineOrder

variable {s u : State} {i : SlotId} {x y : Slot}

/-! ### The entry to READY (R12, R43) -/

/-- The state that enters READY after a HELLO, before its slot engine goes on. -/
def readied (s : State) (i : SlotId) : State :=
  (s.modSlot i fun x =>
    { x with state := .ready, recoveryAttempts := 0, link := { x.link with exchange := none } }).raiseAgentUp i

theorem becomeReady_eq (s : State) (i : SlotId) : s.becomeReady i = (readied s i).slotWork i := rfl

/-- A slot that has entered READY with AGENT_UP. -/
def readySlot (y : Slot) (mask : BitVec 8) : Slot :=
  Slot.raised
    { y with
      state := .ready, recoveryAttempts := 0, agentUpCause := some y.restartCause
      link := { y.link with exchange := none } }
    .agentUp mask

theorem readied_acts (s : State) (i : SlotId) : Acts s (readied s i) [i] none :=
  ((Acts.modSlot s i rfl).before (Acts.modSlot _ i rfl)).before (Acts.raise _ i .agentUp)

theorem readied_keeps (s : State) (i : SlotId) : keepsBut [.uplink, .slots] s (readied s i) :=
  ((modSlot_keeps s i _).mono (by decide)).trans (raiseAgentUp_keeps _ i)

theorem slot_readied (s : State) (i : SlotId) : (readied s i).slot i = readySlot (s.slot i) s.noticeMask := by
  rw [readied, slot_raiseAgentUp, if_pos rfl, State.slot_modSlot_same]
  rfl

/-- The entry to READY after a change of the slot's link. -/
theorem readied_after (hn : y.noticeWaiting = (s.slot i).noticeWaiting) :
    keepsBut [.uplink, .slots] s (readied (s.setSlot i y) i) ∧ slotsBut (· = i) s (readied (s.setSlot i y) i) ∧
      onlyNotices s (readied (s.setSlot i y) i) [i] ∧
      (readied (s.setSlot i y) i).slot i = readySlot y s.noticeMask := by
  have hact : Acts s (readied (s.setSlot i y) i) [i] none :=
    (Acts.modSlot s i (f := fun _ => y) hn).before (readied_acts _ i)
  refine ⟨keeps_after_setSlot (readied_keeps _ i) (by decide), hact.slotsBut_one, hact.onlyNotices, ?_⟩
  rw [slot_readied, State.slot_setSlot_same, State.setSlot_noticeMask]

/-! ### A good LINK_ACK (R42, R44) -/

theorem takeLinkAck_ends {echo : Byte} {target : Nat} {purpose : ExchangePurpose} {wait : Timer}
    (he : (u.slot i).link.exchange = some ⟨target, purpose, some wait⟩) (ht : echo.toNat = target) :
    u.takeLinkAck i [echo] = u.exchangeSucceeds i ⟨target, purpose, some wait⟩ := by
  simp [State.takeLinkAck, he, ht]

theorem takeLinkAck_other {echo : Byte}
    (h : ∀ target purpose wait, (u.slot i).link.exchange = some ⟨target, purpose, some wait⟩ → echo.toNat ≠ target) :
    u.takeLinkAck i [echo] = u := by
  unfold State.takeLinkAck
  split
  · next e he =>
    refine if_neg fun hc => ?_
    obtain ⟨target, purpose, wait⟩ := e
    cases wait with
    | none => simp at hc
    | some wait => exact h target purpose wait he (by simpa using hc)
  · rfl

theorem extendWindow_eq (x : Slot) (old new : Nat) :
    x.extendWindow old new =
      { x with
        inFlight :=
          match x.stream with
          | some r =>
            if x.state = .streaming then
              x.inFlight.map fun f =>
                { f with window := f.window.map fun w => { w with length := extendedWindow w.length r old new } }
            else x.inFlight
          | none => x.inFlight } := by
  unfold Slot.extendWindow
  cases x.stream with
  | none => rfl
  | some r =>
    by_cases hst : x.state = .streaming
    · simp only [if_pos hst]
    · simp only [if_neg hst]

theorem linkAck_good {service echo : Byte} (hf : (s.slot i).state.framed = true)
    (ha : (s.slot i).link.awaitingHello = false) (h4 : echo.toNat ≤ 4) :
    exec (.linkAck i (s.slot i).link.expected service [echo]) s =
      .next (((s.setSlot i (s.slot i).countedGood).takeLinkAck i [echo]).slotWork i) :=
  congrArg Host.Outcome.next
    (receive_good hf (judge_good hf ha linkAck_ne_hello rfl (linkAck_wellFormed.mpr ⟨rfl, by simpa [byteAt] using h4⟩) false))

theorem exchangeSucceeds_boot (s : State) (i : SlotId) (y : Slot) (target : Nat) (wait : Option Timer) :
    (s.setSlot i y).exchangeSucceeds i ⟨target, .boot, wait⟩ =
      (readied (s.setSlot i { y with link := { y.link with rate := target } }) i).slotWork i := by
  rw [← becomeReady_eq]
  exact congrArg (State.becomeReady · i) (modSlot_setSlot s i y _)

theorem exchangeSucceeds_stepDown (s : State) (i : SlotId) (y : Slot) (target : Nat) (wait : Option Timer) :
    (s.setSlot i y).exchangeSucceeds i ⟨target, .stepDown, wait⟩ = (s.setSlot i (y.stepDown target)).resolveDeferred i :=
  congrArg (State.resolveDeferred · i) (modSlot_setSlot s i y _)

/-! ### The wait that is due (R42, R43, R44) -/

theorem exchangeWait_due {target : Nat} {purpose : ExchangePurpose} {wait : Timer} (hf : (s.slot i).state.framed = true)
    (he : (s.slot i).link.exchange = some ⟨target, purpose, some wait⟩) (hd : due s.now wait = true) :
    (s.slot i).dueExchange s.now = some ⟨target, purpose, some wait⟩ := by
  simp [Slot.dueExchange, he, hf, dueSome, hd]

/-- Settles O48: the echo that ends an exchange by its purpose, any other LINK_ACK, and the wait without an answer. -/
theorem rateExchangesEnd : Obligations.RateExchangesEnd := by
  intro i s service echo hf x ready
  refine ⟨fun ha h4 => ⟨fun target wait he ht => ?_, fun target wait he ht => ?_, fun hne => ?_⟩,
    fun target wait hd => ⟨fun he => ?_, fun he => ?_⟩⟩
  · have hslot : ((s.setSlot i x.countedGood).slot i).link.exchange = some ⟨target, .boot, some wait⟩ := by
      rw [State.slot_setSlot_same]
      exact he
    have hexec := linkAck_good (service := service) hf ha h4
    rw [takeLinkAck_ends hslot ht, exchangeSucceeds_boot] at hexec
    exact ⟨_, _, hexec, rfl, readied_after rfl⟩
  · have hslot : ((s.setSlot i x.countedGood).slot i).link.exchange = some ⟨target, .stepDown, some wait⟩ := by
      rw [State.slot_setSlot_same]
      exact he
    have hexec := linkAck_good (service := service) hf ha h4
    rw [takeLinkAck_ends hslot ht, exchangeSucceeds_stepDown] at hexec
    refine ⟨_, _, hexec, rfl, setSlot_keeps s i _, setSlot_slotsBut s i _, ?_⟩
    rw [State.slot_setSlot_same, Slot.stepDown, extendWindow_eq]
    rfl
  · have hslot : (s.setSlot i x.countedGood).slot i = x.countedGood := State.slot_setSlot_same s i _
    have hexec := linkAck_good (service := service) hf ha h4
    rw [takeLinkAck_other (by rw [hslot]; exact hne)] at hexec
    exact ⟨_, _, hexec, rfl, setSlot_keeps s i _, setSlot_slotsBut s i _, hslot⟩
  · have hexec : exec (.rateExchangeWaitExpiry i) s = .next ((readied s i).slotWork i) := by
      change execRateExchangeWaitExpiry i s = _
      simp only [execRateExchangeWaitExpiry, exchangeWait_due hf he hd, becomeReady_eq]
    have hact := readied_acts s i
    exact ⟨_, _, hexec, rfl, readied_keeps s i, hact.slotsBut_one, hact.onlyNotices, slot_readied s i⟩
  · have hexec : exec (.rateExchangeWaitExpiry i) s = .next (s.enterFault i .linkLost (BitVec.ofNat 16 target)) := by
      change execRateExchangeWaitExpiry i s = _
      simp only [execRateExchangeWaitExpiry, exchangeWait_due hf he hd]
    have hact := Acts.enterFault s i .linkLost (BitVec.ofNat 16 target)
    exact ⟨_, hexec, hact.onlySlot, hact.refusesDeferred, enterFault_releases s i _ _,
      (slot_enterFault s i _ _ i).trans (if_pos rfl)⟩

end Sys2Proof.Machine.LinkFrames
end

section
/-! PROOF. A HELLO (2.6): what it makes of the slot by its state, and the rate exchange that it starts. -/

namespace Sys2Proof.Machine.LinkFrames

open Tables FanOut PowerBlock ImageStore SlotActs TimeBase LineOrder

variable {s u : State} {i : SlotId} {x y : Slot} {a : AgentIdentity}

/-! ### The HELLO itself (R39, R16, R41) -/

/-- A slot whose agent has restarted unprompted (R16, R40). -/
def restarted (x : Slot) (a : AgentIdentity) (mask : BitVec 8) : Slot :=
  Slot.raised
    { x.greet a with
      state := .booting, restartCause := .self, abortWait := none, inFlight := none
      reports := x.reports ++ x.inFlightDrop .agentRestart }
    .restartSelf mask

/-- A slot that a HELLO has been taken on, before its rate exchange. -/
def helloSlot (x : Slot) (a : AgentIdentity) (mask : BitVec 8) : Slot :=
  if x.state = .booting then { x.greet a with allowance := none } else restarted x a mask

/-- What a HELLO makes of the state, before the rate exchange. -/
def helloTaken (s : State) (i : SlotId) (a : AgentIdentity) : State :=
  if (s.slot i).state = .booting then s.setSlot i { (s.slot i).greet a with allowance := none }
  else ((s.setSlot i ((s.slot i).greet a)).dropInFlight i .agentRestart).restartSelf i

/-- The receiver that took the HELLO hunts again, whichever it was (R33, R38). -/
theorem greet_frameTaken (x : Slot) (d : Bool) (a : AgentIdentity) : (x.frameTaken d).greet a = x.greet a := by
  unfold Slot.frameTaken
  split <;> rfl

theorem takeHello_eq (hf : (s.slot i).state.framed = true) (d : Bool) :
    (s.modSlot i fun x => x.frameTaken d).takeHello i a = (helloTaken s i a).bootExchange i := by
  have hstate : ((s.modSlot i fun x => x.frameTaken d).slot i).state = (s.slot i).state := by
    rw [State.slot_modSlot_same]
    exact SlotSound.frameTaken_state _ d
  have hgreet : ((s.modSlot i fun x => x.frameTaken d).modSlot i fun x => x.greet a) = s.setSlot i ((s.slot i).greet a) := by
    rw [State.modSlot, State.modSlot, setSlot_setSlot, State.slot_setSlot_same, greet_frameTaken]
  unfold State.takeHello helloTaken
  simp only [hstate, hgreet, modSlot_setSlot]
  cases hst : (s.slot i).state <;> simp_all [SlotState.framed]

theorem hello_taken {service : Byte} {payload : List Byte} (hf : (s.slot i).state.framed = true) (h5 : payload.length = 5)
    (d : Bool) :
    exec (.hello i d 0 service payload) s = .next ((helloTaken s i (helloIdentity payload)).bootExchange i) := by
  have hj : (s.slot i).judge ⟨kindHello, 0, service, payload⟩ d = .hello :=
    judge_hello hf rfl (hello_wellFormed.mpr ⟨rfl, h5⟩) d
  change Host.Outcome.next (s.receive i ⟨kindHello, 0, service, payload⟩ d id id) = _
  simp only [State.receive, hj, takeHello_eq hf]

theorem helloIdentity_eq {payload : List Byte} (h5 : payload.length = 5) :
    helloIdentity payload = ⟨halfAt payload 0, halfAt payload 2, byteAt payload 4⟩ := by
  match payload, h5 with
  | [_, _, _, _, _], _ => simp [helloIdentity, halfAt, fieldAt, byteAt, fromLittleEndian]

/-! ### The agent that has restarted (R16, R40) -/

theorem restarting_slot (s : State) (i : SlotId) (a : AgentIdentity) (j : SlotId) :
    ((s.setSlot i ((s.slot i).greet a)).dropInFlight i .agentRestart).slot j =
      if j = i then
        { (s.slot i).greet a with
          inFlight := none, reports := (s.slot i).reports ++ (s.slot i).inFlightDrop .agentRestart }
      else s.slot j := by
  rw [slot_dropInFlight]
  split
  · rw [State.slot_setSlot_same]
    rfl
  · next hj => exact State.slot_setSlot_ne s _ hj

/-- RESTART_SELF is raised before the deferred OPEN_BRIDGE is decided. -/
theorem slot_restartSelf (u : State) (i j : SlotId) :
    (u.restartSelf i).slot j =
      if j = i then
        Slot.raised { u.slot i with state := .booting, restartCause := .self, abortWait := none } .restartSelf u.noticeMask
      else u.slot j := by
  have hraised (j : SlotId) := slot_raise (u.modSlot i fun x =>
    { x with state := .booting, restartCause := .self, abortWait := none }) i .restartSelf j
  rw [State.restartSelf, slot_resolveDeferred_of_not_ready, hraised]
  · split
    · rw [State.slot_modSlot_same, State.modSlot_noticeMask]
    · next hj => exact State.slot_modSlot_ne u _ hj
  · rw [hraised, if_pos rfl, State.slot_modSlot_same]
    exact SlotState.noConfusion

theorem restartSelf_acts (he : (u.slot i).link.exchange = none) : Acts u (u.restartSelf i) [i] (refusal u i) := by
  have hact : Acts u ((u.modSlot i fun x =>
      { x with state := .booting, restartCause := .self, abortWait := none }).raise i .restartSelf) [i] none :=
    (Acts.modSlot u i rfl).before (Acts.raise _ i .restartSelf)
  rw [← refusal_congr hact.port i]
  refine hact.before (Acts.resolveDeferred ?_ ?_)
  · rw [slot_raise, if_pos rfl, State.slot_modSlot_same]
    exact SlotState.noConfusion
  · rw [slot_raise, if_pos rfl, State.slot_modSlot_same]
    exact he

theorem slot_helloTaken (s : State) (i : SlotId) (a : AgentIdentity) :
    (helloTaken s i a).slot i = helloSlot (s.slot i) a s.noticeMask := by
  unfold helloTaken helloSlot
  split
  · exact State.slot_setSlot_same s i _
  · have hmask : ((s.setSlot i ((s.slot i).greet a)).dropInFlight i .agentRestart).noticeMask = s.noticeMask :=
      dropInFlight_keeps _ i _ .mask (by decide)
    rw [slot_restartSelf, if_pos rfl, restarting_slot, if_pos rfl, hmask]
    rfl

theorem helloTaken_acts (s : State) (i : SlotId) (a : AgentIdentity) :
    Acts s (helloTaken s i a) [i] (if (s.slot i).state = .booting then none else refusal s i) := by
  unfold helloTaken
  split
  · exact Acts.modSlot s i (f := fun x => { x.greet a with allowance := none }) rfl
  · have hact : Acts s ((s.setSlot i ((s.slot i).greet a)).dropInFlight i .agentRestart) [i] none :=
      (Acts.modSlot s i (f := fun x => x.greet a) rfl).before (Acts.dropInFlight _ i .agentRestart)
    rw [← refusal_congr hact.port i]
    exact hact.before (restartSelf_acts (by rw [restarting_slot, if_pos rfl]; rfl))

/-- A restarted agent's stream releases its reference; a booting slot has none to release (R16). -/
theorem helloTaken_releases (s : State) (i : SlotId) (a : AgentIdentity) :
    releasesReferences s (helloTaken s i a) (fun j => decide (j = i ∧ (s.slot i).state ≠ .booting)) := by
  unfold helloTaken
  split
  · next hb => exact releases_of_images rfl fun j => by simp [hb]
  · next hb =>
    have hreleases : releasesReferences s (((s.setSlot i ((s.slot i).greet a)).dropInFlight i .agentRestart).restartSelf i)
        (· == i) := by
      refine releasesReferences_congr (restartSelf_keeps _ i .images (by decide)) ?_
      exact releases_after_setSlot (y := (s.slot i).greet a) rfl (releaseReference_releases _ i)
    exact releases_gone_congr hreleases fun j => by simp [hb, beq_eq_decide]

/-! ### The rate exchange after the HELLO (R43) -/

/-- The target of the exchange that follows a HELLO. -/
def helloTarget (s : State) (x : Slot) (a : AgentIdentity) : Nat :=
  min (min (x.pendingCeiling.getD x.profile.rateCeiling) (if s.straps.ceilingFour then 4 else 3)) a.maxRate.toNat

theorem helloSlot_fields (x : Slot) (a : AgentIdentity) (mask : BitVec 8) :
    (helloSlot x a mask).profile.rateCeiling = x.pendingCeiling.getD x.profile.rateCeiling ∧
      (helloSlot x a mask).agent = some a ∧ (helloSlot x a mask).link.exchange = none := by
  unfold helloSlot
  split <;> exact ⟨rfl, rfl, rfl⟩

theorem helloTaken_bootTarget (s : State) (i : SlotId) (a : AgentIdentity) :
    (helloTaken s i a).bootTarget i = helloTarget s (s.slot i) a := by
  have hstraps : (helloTaken s i a).straps = s.straps := (helloTaken_acts s i a).keeps.straps (by decide)
  obtain ⟨hceiling, hagent, -⟩ := helloSlot_fields (s.slot i) a s.noticeMask
  unfold State.bootTarget helloTarget
  simp only [slot_helloTaken, hceiling, hagent, hstraps, Straps.ceiling]

theorem startExchange_acts (s : State) (i : SlotId) (target : Nat) (purpose : ExchangePurpose) :
    Acts s (s.startExchange i target purpose) [i] none :=
  Acts.modSlot s i (by rw [Slot.raiseFrame_eq])

/-- The state after a HELLO and its exchange, before the slot engine goes on. -/
def helloDone (s : State) (i : SlotId) (a : AgentIdentity) : State :=
  if helloTarget s (s.slot i) a = 0 then readied (helloTaken s i a) i
  else (helloTaken s i a).startExchange i (helloTarget s (s.slot i) a) .boot

theorem bootExchange_eq (s : State) (i : SlotId) (a : AgentIdentity) :
    (helloTaken s i a).bootExchange i =
      if helloTarget s (s.slot i) a = 0 then (helloDone s i a).slotWork i else helloDone s i a := by
  unfold State.bootExchange helloDone
  rw [helloTaken_bootTarget]
  split
  · rfl
  · rfl

theorem helloDone_acts (s : State) (i : SlotId) (a : AgentIdentity) :
    Acts s (helloDone s i a) [i] (if (s.slot i).state = .booting then none else refusal s i) := by
  unfold helloDone
  split
  · exact (helloTaken_acts s i a).after (readied_acts _ i)
  · exact (helloTaken_acts s i a).after (startExchange_acts _ i _ _)

theorem helloDone_releases (s : State) (i : SlotId) (a : AgentIdentity) :
    releasesReferences s (helloDone s i a) (fun j => decide (j = i ∧ (s.slot i).state ≠ .booting)) := by
  refine releasesReferences_congr ?_ (helloTaken_releases s i a)
  unfold helloDone
  split
  · exact readied_keeps _ i .images (by decide)
  · exact startExchange_keeps _ i _ _ .images (by decide)

theorem slot_helloDone (s : State) (i : SlotId) (a : AgentIdentity) :
    (helloDone s i a).slot i =
      if helloTarget s (s.slot i) a = 0 then
        Slot.raised
          { helloSlot (s.slot i) a s.noticeMask with
            state := .ready, recoveryAttempts := 0
            agentUpCause := some (helloSlot (s.slot i) a s.noticeMask).restartCause }
          .agentUp s.noticeMask
      else
        Slot.raiseFrame
          { helloSlot (s.slot i) a s.noticeMask with
            link :=
              { (helloSlot (s.slot i) a s.noticeMask).link with
                exchange := some ⟨helloTarget s (s.slot i) a, .boot, none⟩ } }
          0x02 0 [BitVec.ofNat 8 (helloTarget s (s.slot i) a)] := by
  have hmask : (helloTaken s i a).noticeMask = s.noticeMask := (helloTaken_acts s i a).keeps .mask (by decide)
  unfold helloDone
  split
  · obtain ⟨-, -, hexchange⟩ := helloSlot_fields (s.slot i) a s.noticeMask
    rw [slot_readied, slot_helloTaken, hmask, readySlot, ← hexchange]
  · rw [slot_startExchange, if_pos rfl, slot_helloTaken]
    rfl

/-- Settles O47: the HELLO by the slot's state, and the exchange towards its target. -/
theorem helloStartsTheRateExchange : Obligations.HelloStartsTheRateExchange := by
  intro i detector service payload s hf h5 x ceiling target greeted y
  have hidentity := helloIdentity_eq h5
  set a : AgentIdentity := ⟨halfAt payload 0, halfAt payload 2, byteAt payload 4⟩ with ha
  have hexec := hello_taken (service := service) hf h5 detector
  rw [hidentity, bootExchange_eq] at hexec
  have hact := helloDone_acts s i a
  have hy : helloSlot x a s.noticeMask = y := rfl
  have htarget : helloTarget s x a = target := rfl
  have hslot := slot_helloDone s i a
  refine ⟨_, helloDone s i a, hexec, ?_, ?_, helloDone_releases s i a, ?_⟩
  · by_cases hb : x.state = .booting
    · rw [if_pos hb] at hact
      exact Inputs.onlySlot_of_silent hact
    · rw [if_neg hb] at hact
      exact hact.onlySlot
  · by_cases hb : x.state = .booting
    · rw [if_pos hb] at hact
      rw [if_pos hb]
      exact ⟨hact.port, hact.onlyNotices⟩
    · rw [if_neg hb] at hact
      rw [if_neg hb]
      exact hact.refusesDeferred
  · rw [hy, htarget] at hslot
    rw [htarget]
    by_cases ht : target = 0
    · rw [if_pos ht] at hslot
      rw [if_pos ht, if_pos ht]
      exact ⟨rfl, hslot⟩
    · rw [if_neg ht] at hslot
      rw [if_neg ht, if_neg ht]
      exact ⟨rfl, hslot⟩

end Sys2Proof.Machine.LinkFrames
end
